-- ==== Sys2Proof/Word.lean ====
section
/-! DEFINITION. Word.lean: the value types of the block (00_scope.md R8). Every value is unsigned. -/

namespace Sys2Proof

/-- `u8`: a byte of a frame, and the width of the CRC register (R7 `CRC_WIDTH`, R8). -/
abbrev Byte := BitVec 8

/-- `u16`: a command code or a data word (R7 `WORD_WIDTH`, R8). -/
abbrev Word := BitVec 16

/-- The 32-bit request descriptor (R14, R45). -/
abbrev Req := BitVec 32

end Sys2Proof
end

