-- ==== Sys2Proof/Config.lean ====
section
/-! DEFINITION. Config.lean: what an implementation fixes (00_scope.md R7), the names of the 22 commands, and the
parameters the spec leaves open. -/

namespace Sys2Proof

/-- The two OPEN parameters of the block (R7; 92_eei_decisions.md D5, D6). Log entry 2. -/
structure Params where
  /-- `MAX_RESP_WORDS`: the largest N that DEC_FRAME accepts. -/
  maxRespWords : Nat
  /-- `MAX_ARG_WORDS`: the largest N that ENC_CMD_ARGS accepts. -/
  maxArgWords : Nat
  deriving DecidableEq, Repr

namespace Params

/-- The spec's defaults (R7). -/
def default : Params := { maxRespWords := 3, maxArgWords := 1 }

/-- R7: "every rule is written for any values from 1 to 15 of them". -/
abbrev wf (p : Params) : Prop :=
  1 ≤ p.maxRespWords ∧ p.maxRespWords ≤ 15 ∧ 1 ≤ p.maxArgWords ∧ p.maxArgWords ≤ 15

/-- `IN_CAP = 3 × MAX_RESP_WORDS` (R7). -/
def inCap (p : Params) : Nat := 3 * p.maxRespWords

/-- `OUT_CAP = max(3, 2 + 3 × MAX_ARG_WORDS)` (R7). -/
def outCap (p : Params) : Nat := max 3 (2 + 3 * p.maxArgWords)

end Params

/-- The commands: "an opcode from a fixed enumerated set" (R11), the 22 names of R81. -/
inductive Command where
  | startPeriodicMeasurement | readMeasurement | stopPeriodicMeasurement
  | setTemperatureOffset | getTemperatureOffset | setSensorAltitude | getSensorAltitude
  | setAmbientPressure | performForcedRecalibration | setAutomaticCalibration
  | getAutomaticCalibration | startLowPowerMeasurement | getDataReadyStatus
  | persistSettings | getSerialNumber | performSelfTest | performFactoryReset | reinit
  | measureSingleShot | measureSingleShotRhtOnly | powerDown | wakeUp
  deriving DecidableEq, Repr

/-- The sensor's states as the host tracks them (70_reset_and_hazards.md R134). -/
inductive SensorState where
  | uninitialized | asleep | idle | periodicMeasuring | singleShotPending
  deriving DecidableEq, Repr

namespace Config

/-- `I2C_ADDR` (R7, R26): exported for the host's transport, never put into a frame (R37). -/
def i2cAddr : BitVec 7 := 0x62#7

/-- The block's identity string (R2). -/
def identity : String := "CRC8-0x31-FF/BE16/I2C-FRAME"

/-- `arg_words(cmd)` for a command whose argument count the source does not give (R104, D18). Log entry 13. -/
opaque argWords : Command → Nat

/-- `resp_words(cmd)` for a command whose response count the source does not give (R104, D18). Log entry 13. -/
opaque respWords : Command → Nat

/-- `delay_ms(cmd)` for a command whose delay the source does not give (R104, D18). Log entry 13. -/
opaque delayMs : Command → Nat

/-- The order rule of a command whose state precondition the source does not give (R104): the sensor state after
it, `none` where the sensor must not be sent it. Log entry 13. -/
opaque orderRule : Command → SensorState → Option SensorState

/-- The least time in milliseconds between the end of a command's write and the read of its response, for a read
command with delay 0: the source does not state it and does not say that zero is safe (91_not_in_source.md N8).
Log entry 21. -/
opaque readGapMs : Command → Nat

end Config

end Sys2Proof
end

