-- ==== Sys2Proof/Syntax.lean ====
section
/-! DEFINITION. Syntax.lean: the instructions, one constructor per row of spec/opcode_table.json. -/

namespace Sys2Proof

/-- A request of the block. The first five constructors are the operations of 30_encoding.md R46, with the fields of
REQ that are operands (R45: `W` 16 bits, `N` 4 bits). The other 22 are the command codes of 42_command_set.md, each
the request `enc.cmd <name>` that its rule gives (log entries 8 and 9). -/
inductive Instr where
  /-- `crc8 #w` (R65). -/
  | crc8 (w : Word)
  /-- `enc.cmd #w` (R73). A request whose `w` is a listed code decodes to that command's own constructor. -/
  | encCmd (w : Word)
  /-- `enc.word #w` (R74). -/
  | encWord (w : Word)
  /-- `enc.args` with `n` argument words and command code `w` (R75). -/
  | encArgs (n : BitVec 4) (w : Word)
  /-- `dec.frame n` (R76). -/
  | decFrame (n : BitVec 4)
  /-- R82. -/
  | startPeriodicMeasurement
  /-- R83. -/
  | readMeasurement
  /-- R84. -/
  | stopPeriodicMeasurement
  /-- R85. -/
  | setTemperatureOffset
  /-- R86. -/
  | getTemperatureOffset
  /-- R87. -/
  | setSensorAltitude
  /-- R88. -/
  | getSensorAltitude
  /-- R89. -/
  | setAmbientPressure
  /-- R90. -/
  | performForcedRecalibration
  /-- R91. -/
  | setAutomaticCalibration
  /-- R92. -/
  | getAutomaticCalibration
  /-- R93. -/
  | startLowPowerMeasurement
  /-- R94. -/
  | getDataReadyStatus
  /-- R95. -/
  | persistSettings
  /-- R96. -/
  | getSerialNumber
  /-- R97. -/
  | performSelfTest
  /-- R98. -/
  | performFactoryReset
  /-- R99. -/
  | reinit
  /-- R100. -/
  | measureSingleShot
  /-- R101. -/
  | measureSingleShotRhtOnly
  /-- R102. -/
  | powerDown
  /-- R103. -/
  | wakeUp
  deriving DecidableEq, Repr

end Sys2Proof
end

