-- ==== Sys2Proof/Machine/CommandSet.lean ====
section
/-! DEFINITION. Machine/CommandSet.lean: the constant command table (42_command_set.md R81; 30_encoding.md R52). -/

namespace Sys2Proof

namespace Command

/-- The 16-bit code of a command (R81, column "code"). -/
def code : Command → Word
  | startPeriodicMeasurement => 0x21B1#16
  | readMeasurement => 0xEC05#16
  | stopPeriodicMeasurement => 0x3F86#16
  | setTemperatureOffset => 0x241D#16
  | getTemperatureOffset => 0x2318#16
  | setSensorAltitude => 0x2427#16
  | getSensorAltitude => 0x2322#16
  | setAmbientPressure => 0xE000#16
  | performForcedRecalibration => 0x362F#16
  | setAutomaticCalibration => 0x2416#16
  | getAutomaticCalibration => 0x2313#16
  | startLowPowerMeasurement => 0x21AC#16
  | getDataReadyStatus => 0xE4B8#16
  | persistSettings => 0x3615#16
  | getSerialNumber => 0x3682#16
  | performSelfTest => 0x3639#16
  | performFactoryReset => 0x3632#16
  | reinit => 0x3646#16
  | measureSingleShot => 0x219D#16
  | measureSingleShotRhtOnly => 0x2196#16
  | powerDown => 0x36E0#16
  | wakeUp => 0x36F6#16

/-- `CommandTable`: the 22 commands in R81's order. -/
def all : List Command :=
  [startPeriodicMeasurement, readMeasurement, stopPeriodicMeasurement, setTemperatureOffset,
   getTemperatureOffset, setSensorAltitude, getSensorAltitude, setAmbientPressure,
   performForcedRecalibration, setAutomaticCalibration, getAutomaticCalibration,
   startLowPowerMeasurement, getDataReadyStatus, persistSettings, getSerialNumber,
   performSelfTest, performFactoryReset, reinit, measureSingleShot, measureSingleShotRhtOnly,
   powerDown, wakeUp]

/-- The lookup of R62(3): the command a code stands for, `none` for a value outside the table (R52). -/
def ofCode? (w : Word) : Option Command := all.find? (fun c => c.code == w)

/-- The instruction of the command's own row: the request `enc.cmd <name>` (R82 to R103). -/
def instr : Command → Instr
  | startPeriodicMeasurement => .startPeriodicMeasurement
  | readMeasurement => .readMeasurement
  | stopPeriodicMeasurement => .stopPeriodicMeasurement
  | setTemperatureOffset => .setTemperatureOffset
  | getTemperatureOffset => .getTemperatureOffset
  | setSensorAltitude => .setSensorAltitude
  | getSensorAltitude => .getSensorAltitude
  | setAmbientPressure => .setAmbientPressure
  | performForcedRecalibration => .performForcedRecalibration
  | setAutomaticCalibration => .setAutomaticCalibration
  | getAutomaticCalibration => .getAutomaticCalibration
  | startLowPowerMeasurement => .startLowPowerMeasurement
  | getDataReadyStatus => .getDataReadyStatus
  | persistSettings => .persistSettings
  | getSerialNumber => .getSerialNumber
  | performSelfTest => .performSelfTest
  | performFactoryReset => .performFactoryReset
  | reinit => .reinit
  | measureSingleShot => .measureSingleShot
  | measureSingleShotRhtOnly => .measureSingleShotRhtOnly
  | powerDown => .powerDown
  | wakeUp => .wakeUp

/-- R81, columns "args", "resp" and "delay" in milliseconds; `none` where the source does not give them (R104). -/
def attributes : Command → Option (Nat × Nat × Nat)
  | startPeriodicMeasurement => some (0, 0, 0)
  | readMeasurement => some (0, 3, 0)
  | stopPeriodicMeasurement => some (0, 0, 500)
  | setTemperatureOffset => none
  | getTemperatureOffset => none
  | setSensorAltitude => none
  | getSensorAltitude => none
  | setAmbientPressure => none
  | performForcedRecalibration => none
  | setAutomaticCalibration => none
  | getAutomaticCalibration => none
  | startLowPowerMeasurement => none
  | getDataReadyStatus => some (0, 1, 0)
  | persistSettings => none
  | getSerialNumber => some (0, 3, 0)
  | performSelfTest => some (0, 1, 10000)
  | performFactoryReset => some (0, 0, 1200)
  | reinit => some (0, 0, 20)
  | measureSingleShot => some (0, 0, 5000)
  | measureSingleShotRhtOnly => none
  | powerDown => some (0, 0, 0)
  | wakeUp => some (0, 0, 20)

/-- `arg_words(cmd)`: the table's count, or the host's open parameter (R104). -/
def argWords (c : Command) : Nat :=
  match c.attributes with
  | some (a, _, _) => a
  | none => Config.argWords c

/-- `resp_words(cmd)`: the table's count, or the host's open parameter (R104). -/
def respWords (c : Command) : Nat :=
  match c.attributes with
  | some (_, r, _) => r
  | none => Config.respWords c

/-- `delay_ms(cmd)`: the least wait before the next use of the bus (R133), or the host's open parameter (R104). -/
def delayMs (c : Command) : Nat :=
  match c.attributes with
  | some (_, _, d) => d
  | none => Config.delayMs c

end Command

end Sys2Proof
end

