-- ==== Sys2Proof/WellFormed.lean ====
section
/-! DEFINITION. WellFormed.lean: which terms of Instr are the spelling of a request. -/

namespace Sys2Proof

/-- An instruction is well formed when it is the one spelling of its request: `encCmd w` with a listed code `w` is
spelled by that command's own constructor (log entry 8). Every operand type has exactly the width of its field of
REQ (30_encoding.md R45), so there is nothing else to check. Values that a request may hold and that end in an error
status (an unlisted code, an `n` above the parameter) are well formed: they run. -/
def Instr.wf : Instr → Bool
  | .crc8 _ => true
  | .encCmd w => (Command.ofCode? w).isNone
  | .encWord _ => true
  | .encArgs _ _ => true
  | .decFrame _ => true
  | .startPeriodicMeasurement => true
  | .readMeasurement => true
  | .stopPeriodicMeasurement => true
  | .setTemperatureOffset => true
  | .getTemperatureOffset => true
  | .setSensorAltitude => true
  | .getSensorAltitude => true
  | .setAmbientPressure => true
  | .performForcedRecalibration => true
  | .setAutomaticCalibration => true
  | .getAutomaticCalibration => true
  | .startLowPowerMeasurement => true
  | .getDataReadyStatus => true
  | .persistSettings => true
  | .getSerialNumber => true
  | .performSelfTest => true
  | .performFactoryReset => true
  | .reinit => true
  | .measureSingleShot => true
  | .measureSingleShotRhtOnly => true
  | .powerDown => true
  | .wakeUp => true

end Sys2Proof
end

