-- ==== Sys2Proof/Decode.lean ====
section
/-! DEFINITION. Decode.lean: the complete decode of REQ (30_encoding.md R62), total on every 32-bit value and rejecting
by name, and the encoder (R61). -/

namespace Sys2Proof

/-- Why the decoder rejects a REQ value. Every one ends in `IllegalOperation` (R57, R112). -/
inductive Reject where
  /-- `OP` in 0x5 to 0xF (R46). -/
  | reservedOp
  /-- `RSV ≠ 0` (R48). -/
  | reservedField
  /-- `N ≠ 0` for CRC8, ENC_CMD or ENC_WORD (R47). -/
  | wordCount
  /-- `W ≠ 0` for DEC_FRAME (R49). -/
  | wordField
  deriving DecidableEq, Repr

/-- `OP = REQ[31:28]` (R45). -/
def reqOp (r : Req) : BitVec 4 := r.extractLsb' 28 4

/-- `N = REQ[27:24]` (R45). -/
def reqN (r : Req) : BitVec 4 := r.extractLsb' 24 4

/-- `RSV = REQ[23:16]` (R45). -/
def reqRsv (r : Req) : Byte := r.extractLsb' 16 8

/-- `W = REQ[15:0]` (R45). -/
def reqW (r : Req) : Word := r.extractLsb' 0 16

/-- `{OP, N, RSV = 0, W}` (R45, R61). -/
def packReq (op n : BitVec 4) (w : Word) : Req := op ++ n ++ 0x00#8 ++ w

/-- R62(2): the checks of `RSV`, then of the fields the operation does not use. -/
def checkFields (r : Req) (usesN usesW : Bool) (i : Instr) : Except Reject Instr :=
  if reqRsv r ≠ 0 then .error .reservedField
  else if usesN = false ∧ reqN r ≠ 0 then .error .wordCount
  else if usesW = false ∧ reqW r ≠ 0 then .error .wordField
  else .ok i

/-- R62(3) for ENC_CMD: a listed code is its command's instruction, any other value stays `encCmd` (log entry 8). -/
def bareCommand (w : Word) : Instr :=
  match Command.ofCode? w with
  | some c => c.instr
  | none => .encCmd w

/-- The complete decode of REQ (R62; the operation map is R46). -/
def decodeReq (r : Req) : Except Reject Instr :=
  if reqOp r = 0x0#4 then checkFields r false true (.crc8 (reqW r))
  else if reqOp r = 0x1#4 then checkFields r false true (bareCommand (reqW r))
  else if reqOp r = 0x2#4 then checkFields r false true (.encWord (reqW r))
  else if reqOp r = 0x3#4 then checkFields r true true (.encArgs (reqN r) (reqW r))
  else if reqOp r = 0x4#4 then checkFields r true false (.decFrame (reqN r))
  else .error .reservedOp

/-- The REQ of `enc.cmd` with a command code (R73, R82 to R103). -/
def commandReq (w : Word) : Req := packReq 0x1#4 0x0#4 w

/-- The REQ of an instruction (R59, R61; for a command the value its own rule gives, R82 to R103). -/
def encode : Instr → Req
  | .crc8 w => packReq 0x0#4 0x0#4 w
  | .encCmd w => packReq 0x1#4 0x0#4 w
  | .encWord w => packReq 0x2#4 0x0#4 w
  | .encArgs n w => packReq 0x3#4 n w
  | .decFrame n => packReq 0x4#4 n 0x0000#16
  | .startPeriodicMeasurement => commandReq Command.startPeriodicMeasurement.code
  | .readMeasurement => commandReq Command.readMeasurement.code
  | .stopPeriodicMeasurement => commandReq Command.stopPeriodicMeasurement.code
  | .setTemperatureOffset => commandReq Command.setTemperatureOffset.code
  | .getTemperatureOffset => commandReq Command.getTemperatureOffset.code
  | .setSensorAltitude => commandReq Command.setSensorAltitude.code
  | .getSensorAltitude => commandReq Command.getSensorAltitude.code
  | .setAmbientPressure => commandReq Command.setAmbientPressure.code
  | .performForcedRecalibration => commandReq Command.performForcedRecalibration.code
  | .setAutomaticCalibration => commandReq Command.setAutomaticCalibration.code
  | .getAutomaticCalibration => commandReq Command.getAutomaticCalibration.code
  | .startLowPowerMeasurement => commandReq Command.startLowPowerMeasurement.code
  | .getDataReadyStatus => commandReq Command.getDataReadyStatus.code
  | .persistSettings => commandReq Command.persistSettings.code
  | .getSerialNumber => commandReq Command.getSerialNumber.code
  | .performSelfTest => commandReq Command.performSelfTest.code
  | .performFactoryReset => commandReq Command.performFactoryReset.code
  | .reinit => commandReq Command.reinit.code
  | .measureSingleShot => commandReq Command.measureSingleShot.code
  | .measureSingleShotRhtOnly => commandReq Command.measureSingleShotRhtOnly.code
  | .powerDown => commandReq Command.powerDown.code
  | .wakeUp => commandReq Command.wakeUp.code

/-- The REQ value of a word of spec/opcode_table.json: a REQ32 row's word is REQ itself; a CMD16 row's word is a
command code, which reaches the block in the W field of `enc.cmd` (log entry 9). -/
def tableReq (nbits w : Nat) : Req :=
  if nbits = 16 then commandReq (BitVec.ofNat 16 w) else BitVec.ofNat 32 w

/-- The instruction the decoder reads from a word of spec/opcode_table.json. A 16-bit word that is no command code
is no row's word. -/
def decodeTableWord (nbits w : Nat) : Option Instr :=
  if nbits = 32 ∧ w < 2 ^ 32 then (decodeReq (tableReq 32 w)).toOption
  else if nbits = 16 ∧ w < 2 ^ 16 ∧ (Command.ofCode? (BitVec.ofNat 16 w)).isSome then
    (decodeReq (tableReq 16 w)).toOption
  else none

end Sys2Proof
end

