-- ==== Sys2Proof/Machine/State.lean ====
section
/-! DEFINITION. Machine/State.lean: the state of the block (10_state.md R12 to R27), the host actions still to come, and
the reasons a step can stop. -/

namespace Sys2Proof.Machine

/-- The response functions of 43_response_fields.md, which the host applies to decoded words. -/
inductive ResponseField where
  /-- R105. -/
  | dataReady
  /-- R106. -/
  | selfTest
  /-- R107. -/
  | serialNumber
  /-- R108. -/
  | measurement
  deriving DecidableEq, Repr

/-- What the host can do to the block (20_memory.md R30, R38; 30_encoding.md R59; 70_reset_and_hazards.md R126).
Log entry 1. -/
inductive HostAction where
  /-- `arg[j] <- #a`. -/
  | writeArg (j : Nat) (a : Word)
  /-- Write one byte of the frame buffer, `IN[i]`. -/
  | writeIn (i : Nat) (b : Byte)
  /-- Write `IN_LEN`. -/
  | writeInLen (n : Nat)
  /-- `in <- [b0, b1, ...]`: sets IN and IN_LEN. -/
  | loadFrame (bytes : List Byte)
  /-- `recv`: the transport reads the bus and moves the bytes it got into IN (R38), which sets IN and IN_LEN. -/
  | recv (bytes : List Byte)
  /-- Write REQ, which issues the request. -/
  | issue (r : Req)
  /-- `send`: the transport writes `OUT[0..OUT_LEN-1]` to the bus. -/
  | send
  /-- `wait`: the host lets this many milliseconds pass. -/
  | wait (ms : Nat)
  /-- The host applies a response function to WORDS. -/
  | interpret (f : ResponseField)
  /-- The block's hardware reset. -/
  | reset
  deriving DecidableEq, Repr

/-- The block, with the host's remaining program. -/
structure State where
  /-- `MAX_RESP_WORDS` and `MAX_ARG_WORDS` (R7); the model's own field, which no step changes. Log entry 2. -/
  params : Params
  /-- The host's remaining actions, first one next; the model's own field. Log entry 1. -/
  host : List HostAction
  /-- `REQ` (R14). -/
  req : Req
  /-- `ARG` (R15): an element the host has not written since reset holds no value. Log entry 5. -/
  arg : List (Option Word)
  /-- `IN` (R16). -/
  inBuf : List Byte
  /-- `IN_LEN` (R16). -/
  inLen : Nat
  /-- `OUT` (R17). -/
  out : List Byte
  /-- `OUT_LEN` (R17). -/
  outLen : Nat
  /-- `WORDS` (R18). -/
  words : List Word
  /-- `WCOUNT` (R18). -/
  wcount : Nat
  /-- `STATUS` (R19). -/
  status : BitVec 4
  /-- The internal CRC register (R22). Log entry 7. -/
  crc : Byte
  deriving DecidableEq, Repr

/-- Why a run of the host's program stops. None is a behaviour of the block (60_exceptions.md R119: "No error is
fatal to the block"): each is a host program that does what the spec forbids it or says nothing about. -/
inductive Fault where
  /-- ENC_CMD_ARGS read `ARG[j]`, which the host never wrote (R15, R75; 93_implementation_defined.md I3). Raised by the
  meaning of `enc.args`. Safe: the spec asks a model to fault here. -/
  | argNotWritten (j : Nat)
  /-- The host wrote a buffer element or a length that the block does not have (R15, R16). Raised by the host's
  writes. Safe: the spec gives such a write no effect. Log entry 6. -/
  | noSuchElement
  /-- The host applied a response function when the last request was not a successful DEC_FRAME of the number of
  words the function needs (R109). Raised by `interpret`. Safe: the spec asks a model to fault here. -/
  | responseNotAvailable
  deriving DecidableEq, Repr

/-- Why an instruction is not run. -/
inductive Refusal where
  /-- An arm of `exec` without a meaning. No arm of this model raises it. Safe. -/
  | notModelled (mnemonic : String)
  deriving DecidableEq, Repr

/-- The machine right after reset, for any parameters (R27, R126). REQ and the bytes of IN have no reset value in the
spec: log entries 3 and 4. -/
def State.resetWith (p : Params) : State where
  params := p
  host := []
  req := 0x00000000#32
  arg := List.replicate p.maxArgWords none
  inBuf := List.replicate p.inCap 0x00#8
  inLen := 0
  out := List.replicate p.outCap 0x00#8
  outLen := 0
  words := List.replicate p.maxRespWords 0x0000#16
  wcount := 0
  status := 0x0#4
  crc := 0xFF#8

/-- The machine right after reset, with the spec's default parameters (R7, R27, R126). -/
def State.reset : State := State.resetWith Params.default

end Sys2Proof.Machine
end

