-- ==== Sys2Proof/Machine/Flags.lean ====
section
/-! DEFINITION. Machine/Flags.lean: the block has no flags (10_state.md R25); its one status is STATUS (R19), whose codes
stand here (60_exceptions.md R111). -/

namespace Sys2Proof.Machine

/-- The five statuses a request can end with (R111). -/
inductive StatusCode where
  | ok | checksumMismatch | frameLengthError | illegalOperation | unknownCommand
  deriving DecidableEq, Repr

/-- The code STATUS holds (R19, R111). -/
def StatusCode.code : StatusCode → BitVec 4
  | .ok => 0x0#4
  | .checksumMismatch => 0x1#4
  | .frameLengthError => 0x2#4
  | .illegalOperation => 0x3#4
  | .unknownCommand => 0x4#4

end Sys2Proof.Machine
end

