-- ==== Sys2Proof/Machine/Operands.lean ====
section
/-! DEFINITION. Machine/Operands.lean: the operand and frame forms of the codec: the byte split and join of a word
(41_word_codec.md R69, R70), word groups (R71, R72), and the reads of the input registers. -/

namespace Sys2Proof.Machine

/-- `be16_split(w)` (R69). -/
def be16Split (w : Word) : List Byte := [hiByte w, loByte w]

/-- `be16_join(hi, lo)` (R70). -/
def be16Join (hi lo : Byte) : Word := (hi.setWidth 16 <<< 8) ||| lo.setWidth 16

/-- `word_group(w)` (R53, R72): the word's two bytes and its CRC byte. -/
def wordGroup (w : Word) : List Byte := be16Split w ++ [crc8 w]

/-- `check_group(b0, b1, b2)` (R71): `none` is `Mismatch`. -/
def checkGroup (b0 b1 b2 : Byte) : Option Word :=
  if crc8 (be16Join b0 b1) = b2 then some (be16Join b0 b1) else none

/-- Membership in `CommandTable` (R52). -/
def isCommandCode (w : Word) : Bool := (Command.ofCode? w).isSome

/-- `IN[i]` (R9, R16). An index outside the buffer, which no request of a well-formed state reads, gives 0x00
(log entry 11). -/
def State.inByte (s : State) (i : Nat) : Byte := s.inBuf.getD i 0x00#8

/-- `ARG[j]` (R15): `none` where the host has not written the element since reset. -/
def State.argWord (s : State) (j : Nat) : Option Word := s.arg.getD j none

/-- `WORDS[i]` (R18), as the host reads it; 0x0000 at an index past the buffer (log entry 11). -/
def State.wordAt (s : State) (i : Nat) : Word := s.words.getD i 0x0000#16

/-- `OUT[i]` (R17), as the host reads it; 0x00 at an index past the buffer (log entry 11). -/
def State.outByte (s : State) (i : Nat) : Byte := s.out.getD i 0x00#8

end Sys2Proof.Machine
end

