-- ==== Sys2Proof/Machine/Ops.lean ====
section
/-! DEFINITION. Machine/Ops.lean: the shared operations: writing a result (10_state.md R21), raising an error status
(the block's only exception, 60_exceptions.md R118), and running word groups through the CRC register. -/

namespace Sys2Proof.Machine

/-- The result of a request (00_scope.md R10). -/
inductive Result where
  /-- `Ok(out_bytes, words)`. -/
  | ok (bytes : List Byte) (words : List Word)
  /-- `Err(status)`. -/
  | err (c : StatusCode)
  deriving DecidableEq, Repr

/-- The first elements of a buffer of `n` elements are `l`, "the rest" is `z` (R21). -/
def fillTo {α : Type} (n : Nat) (z : α) (l : List α) : List α :=
  l.take n ++ List.replicate (n - l.length) z

/-- How a result lands in the result registers, as one update (R21). -/
def State.writeResult (s : State) : Result → State
  | .ok bytes ws =>
    { s with
      out := fillTo s.params.outCap 0x00#8 bytes
      outLen := bytes.length
      words := fillTo s.params.maxRespWords 0x0000#16 ws
      wcount := ws.length
      status := StatusCode.ok.code }
  | .err c =>
    { s with
      out := fillTo s.params.outCap 0x00#8 []
      outLen := 0
      words := fillTo s.params.maxRespWords 0x0000#16 []
      wcount := 0
      status := c.code }

/-- `raise <Status>` (R9, R118): the status code and the cleared results, and the request is over. Nothing is saved,
no mode changes, and there is no return (R119). -/
def State.raise (s : State) (c : StatusCode) : State := s.writeResult (.err c)

/-- The word groups of `ARG[j..j+k-1]` in order, each through the CRC register (R22, R75). An element that holds no
value is a fault of the host program (R15). -/
def State.argGroups (s : State) (j : Nat) : Nat → Except Fault (List Byte × State)
  | 0 => .ok ([], s)
  | k + 1 =>
    match s.argWord j with
    | none => .error (.argNotWritten j)
    | some a =>
      match (s.crcWord a).argGroups (j + 1) k with
      | .error e => .error e
      | .ok (bytes, t) => .ok (be16Split a ++ [(s.crcWord a).crcByte] ++ bytes, t)

/-- The words of the groups `i, …, i+k-1` of IN, checked in frame order through the CRC register; the first mismatch
ends the check with no word (R22, R71, R76, R117). -/
def State.frameWords (s : State) (i : Nat) : Nat → Option (List Word) × State
  | 0 => (some [], s)
  | k + 1 =>
    let w := be16Join (s.inByte (3 * i)) (s.inByte (3 * i + 1))
    let t := s.crcWord w
    if t.crcByte = s.inByte (3 * i + 2) then
      match t.frameWords (i + 1) k with
      | (some ws, u) => (some (w :: ws), u)
      | (none, u) => (none, u)
    else (none, t)

/-- The bare frame of a listed command (R50, R73): the code's two bytes and no CRC. -/
def State.sendCommand (s : State) (c : Command) : Host.Outcome State Fault Refusal :=
  .next (s.writeResult (.ok (be16Split c.code) []))

end Sys2Proof.Machine
end

