-- ==== Sys2Proof/Machine/Codec.lean ====
section
/-! DEFINITION. Machine/Codec.lean: the meanings of the five operations (40_crc8.md R65; 41_word_codec.md R73 to R76). The
checks of RSV, and of the fields an operation does not use, are the decoder's (Decode.lean). -/

namespace Sys2Proof.Machine

/-- CRC8 (R65). -/
def execCrc8 (w : Word) (s : State) : Host.Outcome State Fault Refusal :=
  .next ((s.crcWord w).writeResult (.ok [(s.crcWord w).crcByte] []))

/-- ENC_CMD (R73). -/
def execEncCmd (w : Word) (s : State) : Host.Outcome State Fault Refusal :=
  if isCommandCode w then .next (s.writeResult (.ok (be16Split w) []))
  else .next (s.raise .unknownCommand)

/-- ENC_WORD (R74). -/
def execEncWord (w : Word) (s : State) : Host.Outcome State Fault Refusal :=
  .next ((s.crcWord w).writeResult (.ok (be16Split w ++ [(s.crcWord w).crcByte]) []))

/-- ENC_CMD_ARGS (R75); the order of its checks is R116. -/
def execEncArgs (n : BitVec 4) (w : Word) (s : State) : Host.Outcome State Fault Refusal :=
  if s.params.maxArgWords < n.toNat then .next (s.raise .illegalOperation)
  else if isCommandCode w = false then .next (s.raise .unknownCommand)
  else
    match s.argGroups 0 n.toNat with
    | .error e => .fault e
    | .ok (bytes, t) => .next (t.writeResult (.ok (be16Split w ++ bytes) []))

/-- DEC_FRAME (R76); the order of its checks is R116. -/
def execDecFrame (n : BitVec 4) (s : State) : Host.Outcome State Fault Refusal :=
  if s.params.maxRespWords < n.toNat then .next (s.raise .illegalOperation)
  else if s.inLen ≠ 3 * n.toNat then .next (s.raise .frameLengthError)
  else
    match s.frameWords 0 n.toNat with
    | (some ws, t) => .next (t.writeResult (.ok [] ws))
    | (none, t) => .next (t.raise .checksumMismatch)

end Sys2Proof.Machine
end

