-- ==== Sys2Proof/Machine/Commands.lean ====
section
/-! DEFINITION. Machine/Commands.lean: the meanings of the 22 commands (42_command_set.md R82 to R103), each the request
`enc.cmd <name>` of its rule. -/

namespace Sys2Proof.Machine

/-- StartPeriodicMeasurement (R82). -/
def execStartPeriodicMeasurement (s : State) : Host.Outcome State Fault Refusal := s.sendCommand .startPeriodicMeasurement

/-- ReadMeasurement (R83). -/
def execReadMeasurement (s : State) : Host.Outcome State Fault Refusal := s.sendCommand .readMeasurement

/-- StopPeriodicMeasurement (R84). -/
def execStopPeriodicMeasurement (s : State) : Host.Outcome State Fault Refusal := s.sendCommand .stopPeriodicMeasurement

/-- SetTemperatureOffset (R85). -/
def execSetTemperatureOffset (s : State) : Host.Outcome State Fault Refusal := s.sendCommand .setTemperatureOffset

/-- GetTemperatureOffset (R86). -/
def execGetTemperatureOffset (s : State) : Host.Outcome State Fault Refusal := s.sendCommand .getTemperatureOffset

/-- SetSensorAltitude (R87). -/
def execSetSensorAltitude (s : State) : Host.Outcome State Fault Refusal := s.sendCommand .setSensorAltitude

/-- GetSensorAltitude (R88). -/
def execGetSensorAltitude (s : State) : Host.Outcome State Fault Refusal := s.sendCommand .getSensorAltitude

/-- SetAmbientPressure (R89). -/
def execSetAmbientPressure (s : State) : Host.Outcome State Fault Refusal := s.sendCommand .setAmbientPressure

/-- PerformForcedRecalibration (R90). -/
def execPerformForcedRecalibration (s : State) : Host.Outcome State Fault Refusal := s.sendCommand .performForcedRecalibration

/-- SetAutomaticCalibration (R91). -/
def execSetAutomaticCalibration (s : State) : Host.Outcome State Fault Refusal := s.sendCommand .setAutomaticCalibration

/-- GetAutomaticCalibration (R92). -/
def execGetAutomaticCalibration (s : State) : Host.Outcome State Fault Refusal := s.sendCommand .getAutomaticCalibration

/-- StartLowPowerMeasurement (R93). -/
def execStartLowPowerMeasurement (s : State) : Host.Outcome State Fault Refusal := s.sendCommand .startLowPowerMeasurement

/-- GetDataReadyStatus (R94). -/
def execGetDataReadyStatus (s : State) : Host.Outcome State Fault Refusal := s.sendCommand .getDataReadyStatus

/-- PersistSettings (R95). -/
def execPersistSettings (s : State) : Host.Outcome State Fault Refusal := s.sendCommand .persistSettings

/-- GetSerialNumber (R96). -/
def execGetSerialNumber (s : State) : Host.Outcome State Fault Refusal := s.sendCommand .getSerialNumber

/-- PerformSelfTest (R97). -/
def execPerformSelfTest (s : State) : Host.Outcome State Fault Refusal := s.sendCommand .performSelfTest

/-- PerformFactoryReset (R98). -/
def execPerformFactoryReset (s : State) : Host.Outcome State Fault Refusal := s.sendCommand .performFactoryReset

/-- Reinit (R99). -/
def execReinit (s : State) : Host.Outcome State Fault Refusal := s.sendCommand .reinit

/-- MeasureSingleShot (R100). -/
def execMeasureSingleShot (s : State) : Host.Outcome State Fault Refusal := s.sendCommand .measureSingleShot

/-- MeasureSingleShotRhtOnly (R101). -/
def execMeasureSingleShotRhtOnly (s : State) : Host.Outcome State Fault Refusal := s.sendCommand .measureSingleShotRhtOnly

/-- PowerDown (R102). -/
def execPowerDown (s : State) : Host.Outcome State Fault Refusal := s.sendCommand .powerDown

/-- WakeUp (R103). -/
def execWakeUp (s : State) : Host.Outcome State Fault Refusal := s.sendCommand .wakeUp

end Sys2Proof.Machine
end

