-- ==== Sys2Proof/Machine/Dispatch.lean ====
section
/-! DEFINITION. Machine/Dispatch.lean: one arm per instruction. -/

namespace Sys2Proof.Machine

def exec (i : Instr) (s : State) : Host.Outcome State Fault Refusal :=
  match i with
  | .crc8 w => Sys2Proof.Machine.execCrc8 w s
  | .encCmd w => Sys2Proof.Machine.execEncCmd w s
  | .encWord w => Sys2Proof.Machine.execEncWord w s
  | .encArgs n w => Sys2Proof.Machine.execEncArgs n w s
  | .decFrame n => Sys2Proof.Machine.execDecFrame n s
  | .startPeriodicMeasurement => Sys2Proof.Machine.execStartPeriodicMeasurement s
  | .readMeasurement => Sys2Proof.Machine.execReadMeasurement s
  | .stopPeriodicMeasurement => Sys2Proof.Machine.execStopPeriodicMeasurement s
  | .setTemperatureOffset => Sys2Proof.Machine.execSetTemperatureOffset s
  | .getTemperatureOffset => Sys2Proof.Machine.execGetTemperatureOffset s
  | .setSensorAltitude => Sys2Proof.Machine.execSetSensorAltitude s
  | .getSensorAltitude => Sys2Proof.Machine.execGetSensorAltitude s
  | .setAmbientPressure => Sys2Proof.Machine.execSetAmbientPressure s
  | .performForcedRecalibration => Sys2Proof.Machine.execPerformForcedRecalibration s
  | .setAutomaticCalibration => Sys2Proof.Machine.execSetAutomaticCalibration s
  | .getAutomaticCalibration => Sys2Proof.Machine.execGetAutomaticCalibration s
  | .startLowPowerMeasurement => Sys2Proof.Machine.execStartLowPowerMeasurement s
  | .getDataReadyStatus => Sys2Proof.Machine.execGetDataReadyStatus s
  | .persistSettings => Sys2Proof.Machine.execPersistSettings s
  | .getSerialNumber => Sys2Proof.Machine.execGetSerialNumber s
  | .performSelfTest => Sys2Proof.Machine.execPerformSelfTest s
  | .performFactoryReset => Sys2Proof.Machine.execPerformFactoryReset s
  | .reinit => Sys2Proof.Machine.execReinit s
  | .measureSingleShot => Sys2Proof.Machine.execMeasureSingleShot s
  | .measureSingleShotRhtOnly => Sys2Proof.Machine.execMeasureSingleShotRhtOnly s
  | .powerDown => Sys2Proof.Machine.execPowerDown s
  | .wakeUp => Sys2Proof.Machine.execWakeUp s

end Sys2Proof.Machine
end

