-- ==== Sys2Proof/Machine/Response.lean ====
section
/-! DEFINITION. Machine/Response.lean: the response functions the host applies to decoded words (43_response_fields.md
R105 to R110). -/

namespace Sys2Proof.Machine

/-- `data_ready(status)` (R105). -/
def dataReady (w : Word) : Bool := (w &&& 0x07FF#16) != 0x0000#16

/-- `self_test_failed(word)` (R106): the first response byte is not zero. -/
def selfTestFailed (w : Word) : Bool := hiByte w != 0x00#8

/-- `serial(w1, w2, w3)` (R107), 48 bits. -/
def serial (w1 w2 w3 : Word) : BitVec 48 :=
  (w1.setWidth 48 <<< 32) ||| (w2.setWidth 48 <<< 16) ||| w3.setWidth 48

/-- `co2_ppm(raw)` (R108): the raw word unchanged. -/
def co2Ppm (raw : Word) : Word := raw

/-- What a response function gives the host. -/
inductive ResponseValue where
  /-- `data_ready` and `self_test_failed`. -/
  | flag (b : Bool)
  /-- `serial`. -/
  | serial (v : BitVec 48)
  /-- CO2 in ppm, and the raw temperature and humidity words, which this spec passes on unconverted (R108). -/
  | measurement (co2 rawTemperature rawHumidity : Word)
  deriving DecidableEq, Repr

/-- The number of words a response function needs (R109). -/
def ResponseField.wordCount : ResponseField → Nat
  | .dataReady => 1
  | .selfTest => 1
  | .serialNumber => 3
  | .measurement => 3

/-- The host applies a response function to WORDS. R109: it has a meaning only when STATUS is OK and WCOUNT is the
number of words it needs; any other use is a fault of the host program (log entry 12). -/
def State.interpret (s : State) (f : ResponseField) : Except Fault ResponseValue :=
  if s.status = StatusCode.ok.code ∧ s.wcount = f.wordCount then
    match f with
    | .dataReady => .ok (.flag (dataReady (s.wordAt 0)))
    | .selfTest => .ok (.flag (selfTestFailed (s.wordAt 0)))
    | .serialNumber => .ok (.serial (Sys2Proof.Machine.serial (s.wordAt 0) (s.wordAt 1) (s.wordAt 2)))
    | .measurement => .ok (.measurement (co2Ppm (s.wordAt 0)) (s.wordAt 1) (s.wordAt 2))
  else .error .responseNotAvailable

end Sys2Proof.Machine
end

