-- ==== Sys2Proof/Machine/HostPort.lean ====
section
/-! DEFINITION. Machine/HostPort.lean: what one host action does to the block (20_memory.md R30; 30_encoding.md R59). -/

namespace Sys2Proof.Machine

/-- The host writes REQ, which issues the request (R30): the block decodes REQ and runs the instruction. A REQ the
decoder rejects is an illegal encoding and ends in `IllegalOperation` (R57, R112). -/
def State.issueRequest (s : State) (r : Req) : Host.Outcome State Fault Refusal :=
  match decodeReq r with
  | .ok i => exec i { s with req := r }
  | .error _ => .next (State.raise { s with req := r } .illegalOperation)

/-- The host writes `ARG[j]` (R15). -/
def State.writeArg (s : State) (j : Nat) (a : Word) : Host.Outcome State Fault Refusal :=
  if j < s.params.maxArgWords then .next { s with arg := s.arg.set j (some a) } else .fault .noSuchElement

/-- The host writes `IN[i]` (R16; log entry 19). -/
def State.writeIn (s : State) (i : Nat) (b : Byte) : Host.Outcome State Fault Refusal :=
  if i < s.params.inCap then .next { s with inBuf := s.inBuf.set i b } else .fault .noSuchElement

/-- The host writes `IN_LEN`, 0 to IN_CAP (R16). -/
def State.writeInLen (s : State) (n : Nat) : Host.Outcome State Fault Refusal :=
  if n ≤ s.params.inCap then .next { s with inLen := n } else .fault .noSuchElement

/-- `in <- [b0, b1, ...]` and `recv` (R38, R59): sets `IN[0..]` and IN_LEN; the bytes at and above the new IN_LEN stay
as they were (log entry 16). A `recv` that delivers fewer bytes than it asked for sets IN_LEN to their number
(log entry 25). -/
def State.loadFrame (s : State) (bytes : List Byte) : Host.Outcome State Fault Refusal :=
  if bytes.length ≤ s.params.inCap then
    .next { s with inBuf := bytes ++ s.inBuf.drop bytes.length, inLen := bytes.length }
  else .fault .noSuchElement

/-- The host interprets WORDS: reading a result register has no effect (R41), and a use that R109 forbids is a fault
of the host program. -/
def State.useResponse (s : State) (f : ResponseField) : Host.Outcome State Fault Refusal :=
  match s.interpret f with
  | .ok _ => .next s
  | .error e => .fault e

/-- The block's hardware reset (R126); the parameters and the host's remaining program stay (log entry 14). -/
def State.hardReset (s : State) : State := { State.resetWith s.params with host := s.host }

/-- One host action. `send` only reads OUT (R38, R41), and the block has no time for `wait` to change (R124, R138; log
entry 15). -/
def State.hostAct (s : State) : HostAction → Host.Outcome State Fault Refusal
  | .writeArg j a => s.writeArg j a
  | .writeIn i b => s.writeIn i b
  | .writeInLen n => s.writeInLen n
  | .loadFrame bytes => s.loadFrame bytes
  | .recv bytes => s.loadFrame bytes
  | .issue r => s.issueRequest r
  | .send => .next s
  | .wait _ => .next s
  | .interpret f => s.useResponse f
  | .reset => .next s.hardReset

/-- What the transport writes to the bus on `send`: `OUT[0..OUT_LEN-1]` (R38), payload bytes only (R37). -/
def State.busBytes (s : State) : List Byte := s.out.take s.outLen

end Sys2Proof.Machine
end

