-- ==== Sys2Proof/Machine/Step.lean ====
section
/-! DEFINITION. Machine/Step.lean: one step of the machine. -/

namespace Sys2Proof.Machine

/-- One step: the host's next action takes place (R29, R30). With no action left the block is idle: it never acts
without a request (R120). Log entries 1 and 10. -/
def step (s : State) : Host.Outcome State Fault Refusal :=
  match s.host with
  | [] => .next s
  | a :: rest => State.hostAct { s with host := rest } a

/-- The state in which the host's very next action issues the request of a word of spec/opcode_table.json
(log entries 9 and 10). -/
def State.withFetchWord (s : State) (nbits w : Nat) : State :=
  { s with host := .issue (tableReq nbits w) :: s.host }

end Sys2Proof.Machine
end

