-- ==== Sys2Proof/Machine/Reference.lean ====
section
/-! DEFINITION. Machine/Reference.lean: the block as the source gives it (00_scope.md R6, R10): one pure function from a
request and its inputs to a result, written from the pseudocode of 40_crc8.md R65 and 41_word_codec.md R73 to R76 over
the fields of REQ as numbers, with no decoder, no CRC register and no result registers. `step` is stated against it. -/

namespace Sys2Proof.Machine

/-- `REQ[31:28]` (R45). -/
def opOf (r : Req) : Nat := r.toNat / 2 ^ 28

/-- `REQ[27:24]` (R45). -/
def nOf (r : Req) : Nat := r.toNat / 2 ^ 24 % 2 ^ 4

/-- `REQ[23:16]` (R45). -/
def rsvOf (r : Req) : Nat := r.toNat / 2 ^ 16 % 2 ^ 8

/-- `REQ[15:0]` (R45). -/
def wOf (r : Req) : Word := BitVec.ofNat 16 (r.toNat % 2 ^ 16)

/-- The 22 command codes as R52 lists them. -/
def commandCodes : List Word :=
  [0x21B1#16, 0xEC05#16, 0x3F86#16, 0x241D#16, 0x2318#16, 0x2427#16, 0x2322#16, 0xE000#16,
   0x362F#16, 0x2416#16, 0x2313#16, 0x21AC#16, 0xE4B8#16, 0x3615#16, 0x3682#16, 0x3639#16,
   0x3632#16, 0x3646#16, 0x219D#16, 0x2196#16, 0x36E0#16, 0x36F6#16]

/-- The illegal request encodings (R57, R112). -/
abbrev IllegalReq (p : Params) (r : Req) : Prop :=
  5 ≤ opOf r ∨ rsvOf r ≠ 0 ∨ (opOf r ≤ 2 ∧ nOf r ≠ 0) ∨ (opOf r = 3 ∧ p.maxArgWords < nOf r) ∨
    (opOf r = 4 ∧ p.maxRespWords < nOf r) ∨ (opOf r = 4 ∧ wOf r ≠ 0x0000#16)

/-- A command request whose code is not in the table (R57, R114). -/
abbrev UnknownReq (r : Req) : Prop := (opOf r = 1 ∨ opOf r = 3) ∧ isCommandCode (wOf r) = false

/-- The values of `ARG[j..j+k-1]`, or the first index the host never wrote (R15). -/
def readArgs (arg : List (Option Word)) (j : Nat) : Nat → Except Fault (List Word)
  | 0 => .ok []
  | k + 1 =>
    match arg.getD j none, readArgs arg (j + 1) k with
    | none, _ => .error (.argNotWritten j)
    | some _, .error e => .error e
    | some a, .ok rest => .ok (a :: rest)

/-- `check_group` on group `i` of a frame (R35, R71). -/
def groupAt (frame : List Byte) (i : Nat) : Option Word :=
  checkGroup (frame.getD (3 * i) 0x00#8) (frame.getD (3 * i + 1) 0x00#8) (frame.getD (3 * i + 2) 0x00#8)

/-- The words of a frame of `n` groups, `none` as soon as one group does not match (R76, R117). -/
def decodeFrame (frame : List Byte) (n : Nat) : Option (List Word) := (List.range n).mapM (groupAt frame)

/-- The result of a request (R10), or the fault of a host program that left an argument unwritten. -/
def reference (p : Params) (arg : List (Option Word)) (inBuf : List Byte) (inLen : Nat) (r : Req) :
    Except Fault Result :=
  if IllegalReq p r then .ok (.err .illegalOperation)
  else if UnknownReq r then .ok (.err .unknownCommand)
  else if opOf r = 0 then .ok (.ok [crc8 (wOf r)] [])
  else if opOf r = 1 then .ok (.ok (be16Split (wOf r)) [])
  else if opOf r = 2 then .ok (.ok (wordGroup (wOf r)) [])
  else if opOf r = 3 then
    match readArgs arg 0 (nOf r) with
    | .error e => .error e
    | .ok args => .ok (.ok (be16Split (wOf r) ++ args.flatMap wordGroup) [])
  else if inLen ≠ 3 * nOf r then .ok (.err .frameLengthError)
  else
    match decodeFrame inBuf (nOf r) with
    | none => .ok (.err .checksumMismatch)
    | some ws => .ok (.ok [] ws)

end Sys2Proof.Machine
end

