-- ==== Sys2Proof/Machine/Assembler.lean ====
section
/-! DEFINITION. Machine/Assembler.lean: the assembler lines and pseudo-instructions of 30_encoding.md R59 to R61, as the
host actions they stand for. -/

namespace Sys2Proof.Machine

/-- A command operand: a name of 42_command_set.md or `#code` (R59). -/
inductive CommandOperand where
  | name (c : Command)
  | code (w : Word)
  deriving DecidableEq, Repr

/-- The value of the W field. -/
def CommandOperand.value : CommandOperand → Word
  | .name c => c.code
  | .code w => w

/-- A line of an assembler program (R59, R60). -/
inductive AsmLine where
  | crc8 (w : Word)
  | encCmd (c : CommandOperand)
  | encWord (w : Word)
  | encArgs (c : CommandOperand) (args : List Word)
  | decFrame (n : BitVec 4)
  /-- The pseudo-instruction `dec.word`. -/
  | decWord
  /-- The pseudo-instruction `read <cmd>, n`; `received` is the `n×3` bytes that the transport's `recv` delivers. -/
  | read (c : CommandOperand) (n : BitVec 4) (received : Vector Byte (3 * n.toNat))
  /-- A host action that is not a request. -/
  | action (a : HostAction)
  deriving DecidableEq, Repr

/-- `ARG[j] <- a_j` for the arguments of `enc.args`, from index `j` on. -/
def writeArgs (j : Nat) : List Word → List HostAction
  | [] => []
  | a :: rest => .writeArg j a :: writeArgs (j + 1) rest

/-- The host actions of a line (R59, R60, R61). An `enc.args` line with more than 15 argument words, whose count does
not fit the field N, writes its arguments and then takes the count modulo 16 (log entry 22). -/
def AsmLine.actions : AsmLine → List HostAction
  | .crc8 w => [.issue (packReq 0x0#4 0x0#4 w)]
  | .encCmd c => [.issue (packReq 0x1#4 0x0#4 c.value)]
  | .encWord w => [.issue (packReq 0x2#4 0x0#4 w)]
  | .encArgs c args => writeArgs 0 args ++ [.issue (packReq 0x3#4 (BitVec.ofNat 4 args.length) c.value)]
  | .decFrame n => [.issue (packReq 0x4#4 n 0x0000#16)]
  | .decWord => [.issue (packReq 0x4#4 0x1#4 0x0000#16)]
  | .read c n received =>
    [.issue (packReq 0x1#4 0x0#4 c.value), .send, .recv received.toList, .issue (packReq 0x4#4 n 0x0000#16)]
  | .action a => [a]

/-- The host actions of a program. -/
def assemble (p : List AsmLine) : List HostAction := p.flatMap AsmLine.actions

end Sys2Proof.Machine
end

