-- ==== Sys2Proof/Machine/Instances.lean ====
section
/-! DEFINITION. Machine/Instances.lean: several instances of the block (10_state.md R28): each has its own registers, and
nothing is shared. -/

namespace Sys2Proof.Machine

/-- One step of instance `k`; the others stand still. Where there is no instance `k`, nothing steps; a
fault of the stepping instance stops the whole list (log entry 24). -/
def stepInstance (k : Nat) (l : List State) : Host.Outcome (List State) Fault Refusal :=
  match l[k]? with
  | none => .next l
  | some s =>
    match step s with
    | .next t => .next (l.set k t)
    | .fault f => .fault f
    | .refused r => .refused r

end Sys2Proof.Machine
end

