-- ==== Sys2Proof/Safety.lean ====
section
/-! DEFINITION. Safety.lean: the invariant of the block, fault-free steps, and the obligations the spec puts on the host
(70_reset_and_hazards.md R128 to R135), which the block does not check. -/

namespace Sys2Proof.Machine

/-- `e` holds of every element of `l` from index `n` on. -/
def allFrom {α : Type} (n : Nat) (z : α) (l : List α) : Prop :=
  ∀ i, n ≤ i → ∀ h : i < l.length, l[i] = z

/-- What every reachable state satisfies: the parameters are in range and the buffers have their capacities (R7, R15
to R18), the lengths are within them, the unused part of OUT and WORDS is zero (R21), STATUS is one of the five codes
(R19), and a request leaves bytes or words but not both, and neither after an error (R17, R18). -/
structure State.Wf (s : State) : Prop where
  params : s.params.wf
  argSize : s.arg.length = s.params.maxArgWords
  inSize : s.inBuf.length = s.params.inCap
  inLen : s.inLen ≤ s.params.inCap
  outSize : s.out.length = s.params.outCap
  outLen : s.outLen ≤ s.params.outCap
  outZero : allFrom s.outLen 0x00#8 s.out
  wordsSize : s.words.length = s.params.maxRespWords
  wcount : s.wcount ≤ s.params.maxRespWords
  wordsZero : allFrom s.wcount 0x0000#16 s.words
  status : s.status.toNat ≤ 4
  oneKind : s.outLen = 0 ∨ s.wcount = 0
  errorClears : s.status ≠ StatusCode.ok.code → s.outLen = 0 ∧ s.wcount = 0

/-- A step that is not a fault of the host program. -/
def State.StepSafe (s : State) : Prop := ∀ f, step s ≠ .fault f

/-- The request `r`, issued in the state `s` with any host actions after it, ends with the result `res` (R10, R21):
the step answers a next state in which `r` stands in REQ, the result registers hold `res`, and nothing else differs
but the internal CRC register. -/
def State.Answers (s : State) (r : Req) (res : Result) : Prop :=
  ∀ rest, ∃ c, step { s with host := .issue r :: rest } =
    .next (State.writeResult { s with host := rest, req := r, crc := c } res)

/-- In every state, the instruction leaves the frame `[hi, lo]` in OUT with STATUS OK, and changes nothing else (R50,
R73). -/
def SendsBytes (i : Instr) (hi lo : Byte) : Prop :=
  ∀ s : State, exec i s = .next
    { s with
      out := hi :: lo :: List.replicate (s.params.outCap - 2) 0x00#8
      outLen := 2
      words := List.replicate s.params.maxRespWords 0x0000#16
      wcount := 0
      status := 0x0#4 }

/-- A row of R81's table: the command's code and wire bytes, the REQ of its rule, and the argument words, response
words and delay where the source gives them. -/
def CommandRow (c : Command) (i : Instr) (r : Req) (hi lo : Byte) (attrs : Option (Nat × Nat × Nat)) : Prop :=
  c.instr = i ∧ c.code = hi ++ lo ∧ encode i = r ∧ decodeReq r = .ok i ∧ c.attributes = attrs ∧
    SendsBytes i hi lo ∧ ∀ s : State, s.Answers r (.ok [hi, lo] [])

end Sys2Proof.Machine

namespace Sys2Proof

/-- R134: the sensor state after a command, `none` where the precondition does not hold. `read_measurement` in
SingleShotPending is allowed "after delay", and R133 makes the host wait that delay before any use of the bus (log entry 17). For the
commands without a rule in the source it is the open parameter (R104). -/
def Command.after : Command → SensorState → Option SensorState
  | .wakeUp, _ => some .idle
  | .powerDown, .idle => some .asleep
  | .powerDown, .periodicMeasuring => some .asleep
  | .powerDown, _ => none
  | .stopPeriodicMeasurement, .periodicMeasuring => some .idle
  | .stopPeriodicMeasurement, .idle => some .idle
  | .stopPeriodicMeasurement, _ => none
  | .startPeriodicMeasurement, .idle => some .periodicMeasuring
  | .startPeriodicMeasurement, _ => none
  | .measureSingleShot, .idle => some .singleShotPending
  | .measureSingleShot, _ => none
  | .readMeasurement, .periodicMeasuring => some .periodicMeasuring
  | .readMeasurement, .singleShotPending => some .singleShotPending
  | .readMeasurement, _ => none
  | .getDataReadyStatus, .periodicMeasuring => some .periodicMeasuring
  | .getDataReadyStatus, .singleShotPending => some .singleShotPending
  | .getDataReadyStatus, _ => none
  | .reinit, .idle => some .idle
  | .reinit, _ => none
  | .performSelfTest, .idle => some .idle
  | .performSelfTest, _ => none
  | .performFactoryReset, .idle => some .idle
  | .performFactoryReset, _ => none
  | .getSerialNumber, .idle => some .idle
  | .getSerialNumber, .asleep => some .asleep
  | .getSerialNumber, _ => none
  | .setTemperatureOffset, st => Config.orderRule .setTemperatureOffset st
  | .getTemperatureOffset, st => Config.orderRule .getTemperatureOffset st
  | .setSensorAltitude, st => Config.orderRule .setSensorAltitude st
  | .getSensorAltitude, st => Config.orderRule .getSensorAltitude st
  | .setAmbientPressure, st => Config.orderRule .setAmbientPressure st
  | .performForcedRecalibration, st => Config.orderRule .performForcedRecalibration st
  | .setAutomaticCalibration, st => Config.orderRule .setAutomaticCalibration st
  | .getAutomaticCalibration, st => Config.orderRule .getAutomaticCalibration st
  | .startLowPowerMeasurement, st => Config.orderRule .startLowPowerMeasurement st
  | .persistSettings, st => Config.orderRule .persistSettings st
  | .measureSingleShotRhtOnly, st => Config.orderRule .measureSingleShotRhtOnly st

end Sys2Proof

namespace Sys2Proof.Machine

/-- What the host must keep track of to meet its obligations (log entry 20). -/
structure HostTrack where
  /-- The sensor's state as the host knows it (R134). -/
  sensor : SensorState
  /-- The command whose frame stands in OUT; the next request overwrites it (R131). -/
  encoded : Option Command
  /-- Milliseconds the host must still wait before it uses the bus (R133). -/
  waitMs : Nat
  /-- Milliseconds the host must still wait before it reads the response (log entry 21). -/
  gapMs : Nat
  /-- The read command that was sent last and whose response has not been delivered yet (R38, R135). -/
  pending : Option Command
  /-- IN_LEN as the host last set it (R128). -/
  inLen : Nat
  /-- The indices of the IN bytes that the host or the transport has written since reset and since the last read
  command was sent (R128, R135). -/
  inReady : List Nat
  /-- The indices of the ARG elements written since reset (R128). -/
  argReady : List Nat
  deriving DecidableEq, Repr

/-- What the host knows right after the block's reset. -/
def HostTrack.start (st : SensorState) : HostTrack :=
  { sensor := st, encoded := none, waitMs := 0, gapMs := 0, pending := none, inLen := 0, inReady := [], argReady := [] }

/-- The command whose frame a request leaves in OUT. A frame whose number of argument words is not the command's own
is no frame of the command here: the spec does not say what the sensor does with it (log entry 23). -/
def encodedBy (p : Params) (r : Req) : Option Command :=
  if reqRsv r = 0 ∧ ((reqOp r = 0x1#4 ∧ reqN r = 0) ∨ (reqOp r = 0x3#4 ∧ (reqN r).toNat ≤ p.maxArgWords)) then
    match Command.ofCode? (reqW r) with
    | none => none
    | some c => if c.argWords = (reqN r).toNat then some c else none
  else none

/-- How many ARG elements an `enc.args` request asks for; 0 for any other request. -/
def argsAsked (r : Req) : Nat := if reqOp r = 0x3#4 ∧ reqRsv r = 0 then (reqN r).toNat else 0

/-- How many word groups a `dec.frame` request asks for; 0 for any other request. -/
def groupsAsked (r : Req) : Nat :=
  if reqOp r = 0x4#4 ∧ reqRsv r = 0 ∧ reqW r = 0 then (reqN r).toNat else 0

/-- The host may issue a request: `enc.args` when `ARG[0..N-1]` are written, and `dec.frame n` with n above 0 when
`IN[0..3n-1]` are written, IN_LEN is 3n, and no response is still to be delivered (R121, R128, R135). -/
abbrev HostTrack.MayIssue (t : HostTrack) (r : Req) : Prop :=
  (∀ j, j < argsAsked r → j ∈ t.argReady) ∧
    (groupsAsked r = 0 ∨
      t.pending = none ∧ t.inLen = 3 * groupsAsked r ∧ ∀ i, i < 3 * groupsAsked r → i ∈ t.inReady)

/-- What the host knows after it has sent the frame of `c`, which leaves the sensor in the state `st`: the delay of
the command runs (R133), for a read command with delay 0 the gap before its response (log entry 21), and the response
of a read command is still to come, so what IN holds is no response to it (R135). -/
def HostTrack.afterSend (t : HostTrack) (c : Command) (st : SensorState) : HostTrack :=
  { t with
    sensor := st
    waitMs := c.delayMs
    gapMs := if c.respWords ≠ 0 ∧ c.delayMs = 0 then Config.readGapMs c else 0
    pending := if c.respWords = 0 then none else some c
    inReady := if c.respWords = 0 then t.inReady else [] }

/-- The host may send a frame: the last command's delay has passed (R133), and no read command with delay 0 waits for
the read that its combined write-then-read still owes (R135). -/
abbrev HostTrack.MaySend (t : HostTrack) : Prop := t.waitMs = 0 ∧ ∀ c ∈ t.pending, c.delayMs ≠ 0

/-- What the host knows after a reset of the block: its registers hold nothing the host wrote, and of the sensor the
host assumes no continuity (R129), so its state is unknown and no response is to come; a delay is still owed
(log entry 20). -/
def HostTrack.afterReset (t : HostTrack) : HostTrack :=
  { HostTrack.start .uninitialized with waitMs := t.waitMs }

/-- What the host knows after the transport has read `k` bytes of the response to `c`: all of them, or fewer, which is
a failed read (R121), which ends the transaction and leaves in IN no response (log entries 20 and 25). -/
def HostTrack.afterRecv (t : HostTrack) (c : Command) (k : Nat) : HostTrack :=
  if k = 3 * c.respWords then { t with pending := none, inLen := k, inReady := List.range k }
  else { t with pending := none, inLen := k, inReady := [] }

/-- The obligations on one host action, and what the host knows after it; `none` where an obligation is broken: a
write outside a buffer (R15, R16; log entry 6), a request that `MayIssue` forbids (R128, R135), `send` without a
command frame in OUT (R131), when `MaySend` forbids it (R133, R135) or in a sensor state that forbids the command
(R134), and `recv` without a response to come, before the delay and the gap have passed, or of more bytes than
the response has (R38, R133, R135; log entries 20 and 21). -/
def HostTrack.act (p : Params) (t : HostTrack) : HostAction → Option HostTrack
  | .writeArg j _ => if j < p.maxArgWords then some { t with argReady := j :: t.argReady } else none
  | .writeIn i _ => if i < p.inCap then some { t with inReady := i :: t.inReady } else none
  | .writeInLen n => if n ≤ p.inCap then some { t with inLen := n } else none
  | .loadFrame bytes =>
    if bytes.length ≤ p.inCap then
      some { t with inLen := bytes.length, inReady := List.range bytes.length ++ t.inReady }
    else none
  | .recv bytes =>
    match t.pending with
    | none => none
    | some c =>
      if t.waitMs = 0 ∧ t.gapMs = 0 ∧ bytes.length ≤ 3 * c.respWords ∧ bytes.length ≤ p.inCap then
        some (t.afterRecv c bytes.length)
      else none
  | .issue r => if t.MayIssue r then some { t with encoded := encodedBy p r } else none
  | .send =>
    match t.encoded with
    | none => none
    | some c =>
      if t.MaySend then
        match c.after t.sensor with
        | none => none
        | some st => some (t.afterSend c st)
      else none
  | .wait ms => some { t with waitMs := t.waitMs - ms, gapMs := t.gapMs - ms }
  | .interpret _ => some t
  | .reset => some t.afterReset

/-- A host program that keeps every obligation from what the host knows; the result is what it knows at the end. -/
def HostTrack.run (p : Params) (t : HostTrack) : List HostAction → Option HostTrack
  | [] => some t
  | a :: rest =>
    match t.act p a with
    | none => none
    | some u => u.run p rest

/-- What the host knows is true of the block: IN_LEN, and that the ARG elements it counts as written hold a value. -/
structure HostTrack.Describes (t : HostTrack) (s : State) : Prop where
  inLen : t.inLen = s.inLen
  args : ∀ j ∈ t.argReady, s.argWord j ≠ none

/-- The lines of a write-then-read of `n` words (R135): the gap before the read is the parameter of log entry 21. -/
def writeThenRead (c : Command) (n : BitVec 4) (frame : List Byte) : List AsmLine :=
  [.encCmd (.name c), .action .send, .action (.wait (Config.readGapMs c)), .action (.recv frame), .decFrame n]

/-- The host's initialisation sequence (R130) with the frames the transport delivers; `selfTest` is the optional last
part. -/
def initSequence (serialFrame : List Byte) (selfTest : Option (List Byte)) : List HostAction :=
  assemble
    ([.encCmd (.name .wakeUp), .action .send, .action (.wait 20),
      .encCmd (.name .stopPeriodicMeasurement), .action .send, .action (.wait 500)] ++
     writeThenRead .getSerialNumber 0x3#4 serialFrame ++
     match selfTest with
     | none => []
     | some frame =>
       [.encCmd (.name .performSelfTest), .action .send, .action (.wait 10000), .action (.recv frame), .decWord])

end Sys2Proof.Machine
end

