-- ==== Sys2Proof/Certificates/Slice0/Obligations.lean ====
section
/-! DEFINITION. Certificates/Slice0/Obligations.lean: the statements for the provers. Each docstring names the rules it
formalises. -/

open Sys2Proof Sys2Proof.Machine

/-- R27: every reset value the spec gives, for any parameters; and the hardware reset of R126 as a host action. The reset values of REQ and IN are the model's own (log entries 3 and 4) and are not stated. -/
def Obligations.ResetLeavesTheSpecsValues : Prop :=
  (∀ p : Params,
    (State.resetWith p).arg = List.replicate p.maxArgWords none ∧
    (State.resetWith p).inBuf.length = p.inCap ∧ (State.resetWith p).inLen = 0 ∧
    (State.resetWith p).out = List.replicate p.outCap 0x00#8 ∧ (State.resetWith p).outLen = 0 ∧
    (State.resetWith p).words = List.replicate p.maxRespWords 0x0000#16 ∧ (State.resetWith p).wcount = 0 ∧
    (State.resetWith p).status = 0x0#4 ∧ (State.resetWith p).crc = 0xFF#8) ∧
  State.reset = State.resetWith { maxRespWords := 3, maxArgWords := 1 } ∧
  (∀ (s : State) (rest : List HostAction),
    step { s with host := .reset :: rest } = .next { State.resetWith s.params with host := rest })

/-- R63: the byte is XORed in, then eight shifts; each drops the top bit and XORs 0x31 in when that bit was 1. With the rule's corner cases and example. -/
def Obligations.CrcStepIsEightShifts : Prop :=
  (∀ c : Byte, (crcShift c).toNat =
    if 128 ≤ c.toNat then (2 * c.toNat - 256) ^^^ 0x31 else 2 * c.toNat) ∧
  (∀ c b : Byte, crcStep c b =
    crcShift (crcShift (crcShift (crcShift (crcShift (crcShift (crcShift (crcShift (c ^^^ b))))))))) ∧
  crcStep 0x00#8 0x00#8 = 0x00#8 ∧ (∀ c : Byte, crcStep c c = 0x00#8) ∧ crcStep 0xFF#8 0xBE#8 = 0x0C#8

/-- R64: the CRC of the two bytes in wire order, the high byte first, from 0xFF and with no final XOR; and the rule's example. -/
def Obligations.CrcOfAWord : Prop :=
  (∀ w : Word, crc8 w =
    crcStep (crcStep 0xFF#8 (BitVec.ofNat 8 (w.toNat / 256))) (BitVec.ofNat 8 (w.toNat % 256))) ∧
  crc8 0xBEEF#16 = 0x92#8

/-- R22: the CRC register is set to 0xFF at the start of every word, so its value before does not matter; afterwards it gives the word's CRC byte, and no other field moves. -/
def Obligations.CrcRegisterStartsFreshForEveryWord : Prop :=
  ∀ (s : State) (w : Word),
    (s.crcWord w).crcByte = crc8 w ∧ s.crcWord w = { s with crc := crc8 w }

/-- R66: the step is one lookup in the published table of 95_test_vectors.md V1, and so is crc8. -/
def Obligations.CrcStepIsTableLookup : Prop :=
  (∀ x : Byte, crcLookup x = crcStep 0x00#8 x) ∧ crcTable.length = 256 ∧
  (∀ c b : Byte, crcStep c b = crcLookup (c ^^^ b)) ∧
  (∀ w : Word, crc8 w = crcLookup (crcLookup (0xFF#8 ^^^ hiByte w) ^^^ loByte w))

/-- R67: affinity, zero residue as an equivalent acceptance test, single-byte error detection, and the two-byte changes that pass. -/
def Obligations.CrcAlgebraicLaws : Prop :=
  (∀ a b : Word, crc8 (a ^^^ b) = crc8 a ^^^ crc8 b ^^^ crc8 0x0000#16) ∧ crc8 0x0000#16 = 0x81#8 ∧
  (∀ w : Word, crcStep (crcStep (crcStep 0xFF#8 (hiByte w)) (loByte w)) (crc8 w) = 0x00#8) ∧
  (∀ b0 b1 b2 : Byte, crcStep (crcStep (crcStep 0xFF#8 b0) b1) b2 = 0x00#8 ↔
    checkGroup b0 b1 b2 = some (be16Join b0 b1)) ∧
  (∀ (w : Word) (k : Nat) (b : Byte), k < 3 → b ≠ (wordGroup w).getD k 0x00#8 →
    groupAt ((wordGroup w).set k b) 0 = none) ∧
  checkGroup 0xFF#8 0x00#8 0x00#8 = some 0xFF00#16 ∧ checkGroup 0x00#8 0xAC#8 0x00#8 = some 0x00AC#16

/-- R69, R70: the big-endian byte pair of a word, the join, both inverse laws and the examples. -/
def Obligations.ByteSplitAndJoinAreInverse : Prop :=
  (∀ w : Word, be16Split w = [BitVec.ofNat 8 (w.toNat / 256), BitVec.ofNat 8 (w.toNat % 256)]) ∧
  (∀ hi lo : Byte, (be16Join hi lo).toNat = 256 * hi.toNat + lo.toNat) ∧
  (∀ w : Word, be16Join (hiByte w) (loByte w) = w) ∧
  (∀ hi lo : Byte, be16Split (be16Join hi lo) = [hi, lo]) ∧
  be16Split 0xEC05#16 = [0xEC#8, 0x05#8] ∧ be16Join 0x12#8 0x34#8 = 0x1234#16

/-- R71, R72: a received group is accepted with its word exactly when its third byte is the word's CRC; a word's own group is accepted; the examples of both rules. -/
def Obligations.GroupIsAcceptedExactlyOnEqualCrc : Prop :=
  (∀ b0 b1 b2 : Byte, checkGroup b0 b1 b2 =
    if crc8 (be16Join b0 b1) = b2 then some (be16Join b0 b1) else none) ∧
  (∀ w : Word, wordGroup w = [hiByte w, loByte w, crc8 w] ∧
    checkGroup (hiByte w) (loByte w) (crc8 w) = some w) ∧
  checkGroup 0xBE#8 0xEF#8 0x92#8 = some 0xBEEF#16 ∧ checkGroup 0xBE#8 0xEF#8 0x93#8 = none ∧
  wordGroup 0x1234#16 = [0x12#8, 0x34#8, 0x37#8]

/-- R65: the CRC8 operation as a request, in every state, with its corner cases. -/
def Obligations.Crc8Request : Prop :=
  (∀ (s : State) (r : Req), opOf r = 0 →
    ((rsvOf r ≠ 0 ∨ nOf r ≠ 0) → s.Answers r (.err .illegalOperation)) ∧
    (rsvOf r = 0 → nOf r = 0 → s.Answers r (.ok [crc8 (wOf r)] []))) ∧
  crc8 0x0000#16 = 0x81#8 ∧ crc8 0xFFFF#16 = 0xAC#8 ∧ crc8 0xFF00#16 = 0x00#8 ∧ crc8 0x0050#16 = 0xFF#8 ∧
  checkGroup 0x00#8 0x00#8 0x00#8 = none ∧ checkGroup 0xFF#8 0xFF#8 0xFF#8 = none ∧
  (∀ hi : Byte, Function.Bijective fun lo : Byte => crc8 (be16Join hi lo)) ∧
  (∀ v : Byte, Set.ncard (fun w : Word => crc8 w = v) = 256) ∧
  opOf 0x0000BEEF#32 = 0 ∧ rsvOf 0x0000BEEF#32 = 0 ∧ nOf 0x0000BEEF#32 = 0 ∧
  crc8 (wOf 0x0000BEEF#32) = 0x92#8

/-- R73: the ENC_CMD operation as a request, in every state. -/
def Obligations.EncCmdRequest : Prop :=
  (∀ (s : State) (r : Req), opOf r = 1 →
    ((rsvOf r ≠ 0 ∨ nOf r ≠ 0) → s.Answers r (.err .illegalOperation)) ∧
    (rsvOf r = 0 → nOf r = 0 → isCommandCode (wOf r) = false → s.Answers r (.err .unknownCommand)) ∧
    (rsvOf r = 0 → nOf r = 0 → isCommandCode (wOf r) = true → s.Answers r (.ok (be16Split (wOf r)) []))) ∧
  (∀ s : State, s.Answers 0x1000EC05#32 (.ok [0xEC#8, 0x05#8] [])) ∧
  (∀ s : State, s.Answers 0x1000E000#32 (.ok [0xE0#8, 0x00#8] []))

/-- R74: the ENC_WORD operation as a request, in every state. -/
def Obligations.EncWordRequest : Prop :=
  (∀ (s : State) (r : Req), opOf r = 2 →
    ((rsvOf r ≠ 0 ∨ nOf r ≠ 0) → s.Answers r (.err .illegalOperation)) ∧
    (rsvOf r = 0 → nOf r = 0 → s.Answers r (.ok (wordGroup (wOf r)) []))) ∧
  (∀ s : State, s.Answers 0x20000000#32 (.ok [0x00#8, 0x00#8, 0x81#8] []) ∧
    s.Answers 0x2000FFFF#32 (.ok [0xFF#8, 0xFF#8, 0xAC#8] []) ∧
    s.Answers 0x2000FF00#32 (.ok [0xFF#8, 0x00#8, 0x00#8] []) ∧
    s.Answers 0x2000BEEF#32 (.ok [0xBE#8, 0xEF#8, 0x92#8] []))

/-- R75, R116: the ENC_CMD_ARGS operation as a request, in every state and for every N. That the fault comes after the checks of REQ and names the first unwritten index is the model's reading (log entry 5, DEDUCED). -/
def Obligations.EncArgsRequest : Prop :=
  (∀ (s : State) (r : Req), opOf r = 3 →
    ((rsvOf r ≠ 0 ∨ s.params.maxArgWords < nOf r) → s.Answers r (.err .illegalOperation)) ∧
    (rsvOf r = 0 → nOf r ≤ s.params.maxArgWords →
      (isCommandCode (wOf r) = false → s.Answers r (.err .unknownCommand)) ∧
      (isCommandCode (wOf r) = true →
        (∀ args : List Word, args.length = nOf r →
          (∀ (j : Nat) (h : j < args.length), s.argWord j = some args[j]) →
          s.Answers r (.ok (be16Split (wOf r) ++ args.flatMap wordGroup) [])) ∧
        (∀ j : Nat, j < nOf r → s.argWord j = none → (∀ i, i < j → s.argWord i ≠ none) →
          ∀ rest, step { s with host := .issue r :: rest } = .fault (.argNotWritten j))))) ∧
  (∀ s : State, 1 ≤ s.params.maxArgWords → s.argWord 0 = some 0x03E8#16 →
    s.Answers 0x31002427#32 (.ok [0x24#8, 0x27#8, 0x03#8, 0xE8#8, 0xD4#8] []))

/-- R76: the DEC_FRAME operation as a request, in every state and for every N. -/
def Obligations.DecFrameRequest : Prop :=
  (∀ (s : State) (r : Req), opOf r = 4 →
    ((rsvOf r ≠ 0 ∨ wOf r ≠ 0x0000#16 ∨ s.params.maxRespWords < nOf r) →
      s.Answers r (.err .illegalOperation)) ∧
    (rsvOf r = 0 → wOf r = 0x0000#16 → nOf r ≤ s.params.maxRespWords →
      (s.inLen ≠ 3 * nOf r → s.Answers r (.err .frameLengthError)) ∧
      (s.inLen = 3 * nOf r →
        (∀ i, i < nOf r → groupAt s.inBuf i = none → s.Answers r (.err .checksumMismatch)) ∧
        (∀ ws : List Word, ws.length = nOf r →
          (∀ (i : Nat) (h : i < ws.length), groupAt s.inBuf i = some ws[i]) → s.Answers r (.ok [] ws))))) ∧
  (∀ s : State, s.inLen = 0 → s.Answers 0x40000000#32 (.ok [] [])) ∧
  (∀ s : State, 3 ≤ s.params.maxRespWords → s.inLen = 9 →
    s.inBuf = [0x12#8, 0x34#8, 0x37#8, 0x56#8, 0x78#8, 0x7D#8, 0x9A#8, 0xBC#8, 0xE0#8] →
    s.Answers 0x43000000#32 (.ok [] [0x1234#16, 0x5678#16, 0x9ABC#16]))

/-- R81 to R103: the command table, one row a command: code, wire bytes, REQ, argument words, response words and delay. Each row also says that the command's instruction answers a next state in every state, with the wire bytes in OUT. That the REQ decodes to the command's own constructor is the model's spelling (log entry 8, DESIGN CHOICE). -/
def Obligations.CommandTableRows : Prop :=
  CommandRow .startPeriodicMeasurement .startPeriodicMeasurement 0x100021B1#32 0x21#8 0xB1#8 (some (0, 0, 0)) ∧
  CommandRow .readMeasurement .readMeasurement 0x1000EC05#32 0xEC#8 0x05#8 (some (0, 3, 0)) ∧
  CommandRow .stopPeriodicMeasurement .stopPeriodicMeasurement 0x10003F86#32 0x3F#8 0x86#8 (some (0, 0, 500)) ∧
  CommandRow .setTemperatureOffset .setTemperatureOffset 0x1000241D#32 0x24#8 0x1D#8 none ∧
  CommandRow .getTemperatureOffset .getTemperatureOffset 0x10002318#32 0x23#8 0x18#8 none ∧
  CommandRow .setSensorAltitude .setSensorAltitude 0x10002427#32 0x24#8 0x27#8 none ∧
  CommandRow .getSensorAltitude .getSensorAltitude 0x10002322#32 0x23#8 0x22#8 none ∧
  CommandRow .setAmbientPressure .setAmbientPressure 0x1000E000#32 0xE0#8 0x00#8 none ∧
  CommandRow .performForcedRecalibration .performForcedRecalibration 0x1000362F#32 0x36#8 0x2F#8 none ∧
  CommandRow .setAutomaticCalibration .setAutomaticCalibration 0x10002416#32 0x24#8 0x16#8 none ∧
  CommandRow .getAutomaticCalibration .getAutomaticCalibration 0x10002313#32 0x23#8 0x13#8 none ∧
  CommandRow .startLowPowerMeasurement .startLowPowerMeasurement 0x100021AC#32 0x21#8 0xAC#8 none ∧
  CommandRow .getDataReadyStatus .getDataReadyStatus 0x1000E4B8#32 0xE4#8 0xB8#8 (some (0, 1, 0)) ∧
  CommandRow .persistSettings .persistSettings 0x10003615#32 0x36#8 0x15#8 none ∧
  CommandRow .getSerialNumber .getSerialNumber 0x10003682#32 0x36#8 0x82#8 (some (0, 3, 0)) ∧
  CommandRow .performSelfTest .performSelfTest 0x10003639#32 0x36#8 0x39#8 (some (0, 1, 10000)) ∧
  CommandRow .performFactoryReset .performFactoryReset 0x10003632#32 0x36#8 0x32#8 (some (0, 0, 1200)) ∧
  CommandRow .reinit .reinit 0x10003646#32 0x36#8 0x46#8 (some (0, 0, 20)) ∧
  CommandRow .measureSingleShot .measureSingleShot 0x1000219D#32 0x21#8 0x9D#8 (some (0, 0, 5000)) ∧
  CommandRow .measureSingleShotRhtOnly .measureSingleShotRhtOnly 0x10002196#32 0x21#8 0x96#8 none ∧
  CommandRow .powerDown .powerDown 0x100036E0#32 0x36#8 0xE0#8 (some (0, 0, 0)) ∧
  CommandRow .wakeUp .wakeUp 0x100036F6#32 0x36#8 0xF6#8 (some (0, 0, 20))

/-- R52: the 22 codes accepted, pairwise distinct; every other value is refused with UnknownCommand by ENC_CMD and by ENC_CMD_ARGS. -/
def Obligations.CommandCodeSpace : Prop :=
  commandCodes.length = 22 ∧ commandCodes.Nodup ∧ (∀ w : Word, isCommandCode w = true ↔ w ∈ commandCodes) ∧
  (∀ w : Word, w ∉ commandCodes → ∀ s : State, exec (.encCmd w) s = .next (s.raise .unknownCommand) ∧
    ∀ n : BitVec 4, n.toNat ≤ s.params.maxArgWords →
      exec (.encArgs n w) s = .next (s.raise .unknownCommand)) ∧
  (∀ w : Word, w ∈ commandCodes → ∀ s : State,
    exec (.encCmd w) s = .next (s.writeResult (.ok (be16Split w) [])) ∧
    exec (.encArgs 0x0#4 w) s = .next (s.writeResult (.ok (be16Split w) [])))

/-- R65, R74 as instructions: CRC8 and ENC_WORD answer a next state in every state, given whole. The value of the hidden CRC register is the model's reading of R22 (log entry 7). -/
def Obligations.WordOperationsComplete : Prop :=
  ∀ (s : State) (w : Word),
    exec (.crc8 w) s = .next
      { s with
        crc := crc8 w, out := crc8 w :: List.replicate (s.params.outCap - 1) 0x00#8, outLen := 1
        words := List.replicate s.params.maxRespWords 0x0000#16, wcount := 0, status := 0x0#4 } ∧
    exec (.encWord w) s = .next
      { s with
        crc := crc8 w
        out := hiByte w :: loByte w :: crc8 w :: List.replicate (s.params.outCap - 3) 0x00#8, outLen := 3
        words := List.replicate s.params.maxRespWords 0x0000#16, wcount := 0, status := 0x0#4 }

/-- R73 as an instruction: it answers a next state in every state. -/
def Obligations.EncCmdCompletes : Prop :=
  ∀ (s : State) (w : Word),
    (isCommandCode w = true → exec (.encCmd w) s = .next
      { s with
        out := hiByte w :: loByte w :: List.replicate (s.params.outCap - 2) 0x00#8, outLen := 2
        words := List.replicate s.params.maxRespWords 0x0000#16, wcount := 0, status := 0x0#4 }) ∧
    (isCommandCode w = false → exec (.encCmd w) s = .next
      { s with
        out := List.replicate s.params.outCap 0x00#8, outLen := 0
        words := List.replicate s.params.maxRespWords 0x0000#16, wcount := 0, status := 0x4#4 })

/-- R75 as an instruction: under conditions on the state and operands alone it answers a next state, given whole. The value of the hidden CRC register is the model's reading of R22 (log entry 7). -/
def Obligations.EncArgsCompletes : Prop :=
  ∀ (s : State) (n : BitVec 4) (w : Word) (args : List Word),
    n.toNat ≤ s.params.maxArgWords → isCommandCode w = true → args.length = n.toNat →
    (∀ (j : Nat) (h : j < args.length), s.argWord j = some args[j]) →
    exec (.encArgs n w) s = .next
      { s with
        crc := (args.getLast?.map crc8).getD s.crc
        out := be16Split w ++ args.flatMap wordGroup ++
          List.replicate (s.params.outCap - (2 + 3 * n.toNat)) 0x00#8
        outLen := 2 + 3 * n.toNat
        words := List.replicate s.params.maxRespWords 0x0000#16, wcount := 0, status := 0x0#4 }

/-- R76 as an instruction: it answers a next state in every state. Which value the hidden CRC register keeps is not stated. -/
def Obligations.DecFrameCompletes : Prop :=
  ∀ (s : State) (n : BitVec 4),
    (s.params.maxRespWords < n.toNat → exec (.decFrame n) s = .next (s.raise .illegalOperation)) ∧
    (n.toNat ≤ s.params.maxRespWords → s.inLen ≠ 3 * n.toNat →
      exec (.decFrame n) s = .next (s.raise .frameLengthError)) ∧
    (n.toNat ≤ s.params.maxRespWords → s.inLen = 3 * n.toNat →
      (∀ ws : List Word, ws.length = n.toNat →
        (∀ (i : Nat) (h : i < ws.length), groupAt s.inBuf i = some ws[i]) →
        ∃ c, exec (.decFrame n) s = .next
          { s with
            crc := c, out := List.replicate s.params.outCap 0x00#8, outLen := 0
            words := ws ++ List.replicate (s.params.maxRespWords - n.toNat) 0x0000#16
            wcount := n.toNat, status := 0x0#4 }) ∧
      (∀ i, i < n.toNat → groupAt s.inBuf i = none →
        ∃ c, exec (.decFrame n) s = .next
          { s with
            crc := c, out := List.replicate s.params.outCap 0x00#8, outLen := 0
            words := List.replicate s.params.maxRespWords 0x0000#16
            wcount := 0, status := 0x1#4 }))

/-- R20: no operation writes an input register; after a request they hold what the host last wrote. The frame of every instruction. -/
def Obligations.InputRegistersAreNeverWritten : Prop :=
  (∀ (i : Instr) (s t : State), exec i s = .next t →
    t.req = s.req ∧ t.arg = s.arg ∧ t.inBuf = s.inBuf ∧ t.inLen = s.inLen ∧
    t.params = s.params ∧ t.host = s.host) ∧
  (∀ (s t : State) (r : Req) (rest : List HostAction),
    step { s with host := .issue r :: rest } = .next t →
    t.req = r ∧ t.arg = s.arg ∧ t.inBuf = s.inBuf ∧ t.inLen = s.inLen ∧
    t.params = s.params ∧ t.host = rest)

/-- R21: how a result lands in the result registers, that every request rewrites all of them, and that what they then hold depends on the request's inputs alone. What OUT and WORDS give at an index past the buffer, which the first clause includes, is the model's choice (log entry 11, DESIGN CHOICE). -/
def Obligations.EveryRequestRewritesEveryResult : Prop :=
  (∀ (s : State) (bytes : List Byte) (ws : List Word),
    bytes.length ≤ s.params.outCap → ws.length ≤ s.params.maxRespWords →
    (∀ i, (s.writeResult (.ok bytes ws)).outByte i = bytes.getD i 0x00#8) ∧
    (∀ i, (s.writeResult (.ok bytes ws)).wordAt i = ws.getD i 0x0000#16) ∧
    (s.writeResult (.ok bytes ws)).out.length = s.params.outCap ∧
    (s.writeResult (.ok bytes ws)).words.length = s.params.maxRespWords ∧
    (s.writeResult (.ok bytes ws)).outLen = bytes.length ∧
    (s.writeResult (.ok bytes ws)).wcount = ws.length ∧
    (s.writeResult (.ok bytes ws)).status = 0x0#4) ∧
  (∀ (s : State) (c : StatusCode),
    (s.raise c).out = List.replicate s.params.outCap 0x00#8 ∧ (s.raise c).outLen = 0 ∧
    (s.raise c).words = List.replicate s.params.maxRespWords 0x0000#16 ∧ (s.raise c).wcount = 0 ∧
    (s.raise c).status = c.code) ∧
  (∀ (s t : State) (r : Req) (rest : List HostAction),
    step { s with host := .issue r :: rest } = .next t →
    (∃ res : Result, s.Answers r res) ∧
    ∀ (s2 : State) (rest2 : List HostAction),
      s2.params = s.params → s2.arg = s.arg → s2.inBuf = s.inBuf → s2.inLen = s.inLen →
      ∃ t2 : State, step { s2 with host := .issue r :: rest2 } = .next t2 ∧ t2.out = t.out ∧
        t2.outLen = t.outLen ∧ t2.words = t.words ∧ t2.wcount = t.wcount ∧ t2.status = t.status)

/-- R57, R112 to R116: which status a request ends with, by the first condition that holds; and the remaining requests do not fail by their encoding or code. -/
def Obligations.RequestsEndWithTheFirstError : Prop :=
  ∀ (s : State) (r : Req),
    (IllegalReq s.params r → ∀ rest, step { s with host := .issue r :: rest } =
      .next (State.raise { s with host := rest, req := r } .illegalOperation)) ∧
    (¬ IllegalReq s.params r → UnknownReq r → ∀ rest, step { s with host := .issue r :: rest } =
      .next (State.raise { s with host := rest, req := r } .unknownCommand)) ∧
    (¬ IllegalReq s.params r → opOf r = 4 → s.inLen ≠ 3 * nOf r →
      ∀ rest, step { s with host := .issue r :: rest } =
        .next (State.raise { s with host := rest, req := r } .frameLengthError)) ∧
    (¬ IllegalReq s.params r → opOf r = 4 → s.inLen = 3 * nOf r →
      (∃ i, i < nOf r ∧ crc8 (be16Join (s.inByte (3 * i)) (s.inByte (3 * i + 1))) ≠ s.inByte (3 * i + 2)) →
      s.Answers r (.err .checksumMismatch)) ∧
    (∀ (rest : List HostAction) (t : State), step { s with host := .issue r :: rest } = .next t →
      (t.status = 0x3#4 ↔ IllegalReq s.params r) ∧
      (t.status = 0x4#4 ↔ ¬ IllegalReq s.params r ∧ UnknownReq r) ∧
      (t.status = 0x2#4 ↔ ¬ IllegalReq s.params r ∧ opOf r = 4 ∧ s.inLen ≠ 3 * nOf r) ∧
      (t.status = 0x1#4 ↔ ¬ IllegalReq s.params r ∧ opOf r = 4 ∧ s.inLen = 3 * nOf r ∧
        ∃ i, i < nOf r ∧
          crc8 (be16Join (s.inByte (3 * i)) (s.inByte (3 * i + 1))) ≠ s.inByte (3 * i + 2)) ∧
      t.status.toNat ≤ 4)

/-- The refinement (R6, R10): the machine (decoder, CRC register, result registers) computes, in every state and for every REQ, exactly the pure function of Machine/Reference.lean. That an unwritten argument faults after the checks of REQ, at the first unwritten index, is the model's reading (log entry 5, DEDUCED). -/
def Obligations.BlockIsTheSourceFunctions : Prop :=
  ∀ (s : State) (r : Req),
    match reference s.params s.arg s.inBuf s.inLen r with
    | .ok res => s.Answers r res
    | .error f => ∀ rest, step { s with host := .issue r :: rest } = .fault f

/-- R41, R80: issuing a request twice is the same as issuing it once; reading results has no effect. -/
def Obligations.ReissuedRequestGivesTheSameState : Prop :=
  (∀ (s t : State) (r : Req) (rest rest2 : List HostAction),
    step { s with host := .issue r :: rest } = .next t →
    step { t with host := .issue r :: rest2 } = .next { t with host := rest2 }) ∧
  (∀ (s : State) (rest : List HostAction), step { s with host := .send :: rest } = .next { s with host := rest }) ∧
  (∀ (s t : State) (f : ResponseField) (rest : List HostAction),
    step { s with host := .interpret f :: rest } = .next t → t = { s with host := rest })

/-- R15: ARG is read only by ENC_CMD_ARGS, which reads exactly ARG[0..N-1]. -/
def Obligations.ArgIsReadOnlyByEncArgs : Prop :=
  ∀ (s t : State) (r : Req) (arg2 : List (Option Word)) (rest : List HostAction),
    (opOf r = 3 → ∀ j, j < nOf r → arg2.getD j none = s.arg.getD j none) →
    step { s with host := .issue r :: rest } = .next t →
    step { s with arg := arg2, host := .issue r :: rest } = .next { t with arg := arg2 }

/-- R16: IN is read only by DEC_FRAME, and bytes at index IN_LEN and above are never read. -/
def Obligations.InIsReadOnlyByDecFrame : Prop :=
  ∀ (s t : State) (r : Req) (buf2 : List Byte) (rest : List HostAction),
    (opOf r = 4 → ∀ i, i < s.inLen → buf2.getD i 0x00#8 = s.inBuf.getD i 0x00#8) →
    step { s with host := .issue r :: rest } = .next t →
    step { s with inBuf := buf2, host := .issue r :: rest } = .next { t with inBuf := buf2 }

/-- R15, R109: the steps that fault, all of them faults of the host program. The model's own are: what a write outside a buffer does (log entry 6, DESIGN CHOICE), that an unwritten argument faults after the checks of REQ and at the first such index (log entry 5, DEDUCED), and that applying a response function is an action that reads STATUS and WCOUNT (log entry 12, DEDUCED). -/
def Obligations.StepFaultsExactlyWhen : Prop :=
  ∀ (s : State) (f : Fault), step s = .fault f ↔
    (∃ j a rest, s.host = .writeArg j a :: rest ∧ s.params.maxArgWords ≤ j ∧ f = .noSuchElement) ∨
    (∃ i b rest, s.host = .writeIn i b :: rest ∧ s.params.inCap ≤ i ∧ f = .noSuchElement) ∨
    (∃ n rest, s.host = .writeInLen n :: rest ∧ s.params.inCap < n ∧ f = .noSuchElement) ∨
    (∃ bytes rest, (s.host = .loadFrame bytes :: rest ∨ s.host = .recv bytes :: rest) ∧
      s.params.inCap < bytes.length ∧ f = .noSuchElement) ∨
    (∃ g rest, s.host = .interpret g :: rest ∧ ¬ (s.status = 0x0#4 ∧ s.wcount = g.wordCount) ∧
      f = .responseNotAvailable) ∨
    (∃ r rest j, s.host = .issue r :: rest ∧ ¬ IllegalReq s.params r ∧ ¬ UnknownReq r ∧ opOf r = 3 ∧
      j < nOf r ∧ s.argWord j = none ∧ (∀ i, i < j → s.argWord i ≠ none) ∧ f = .argNotWritten j)

/-- R119, R137: every request completes; the model refuses no instruction and no step. -/
def Obligations.NothingIsRefused : Prop :=
  (∀ (i : Instr) (s : State) (e : Refusal), exec i s ≠ .refused e) ∧
  (∀ (s : State) (e : Refusal), step s ≠ .refused e) ∧
  (∀ (i : Instr) (s : State), (∀ n w, i ≠ .encArgs n w) → ∃ t, exec i s = .next t)

/-- R77: the output of enc.word decodes to its word, and the concatenation of word groups decodes to its words. -/
def Obligations.WordGroupsDecodeToTheirWords : Prop :=
  (∀ (s : State) (w : Word) (tail : List Byte), 1 ≤ s.params.maxRespWords →
    ∃ t u : State, exec (.encWord w) s = .next t ∧ t.busBytes = wordGroup w ∧
      exec (.decFrame 0x1#4) { t with inBuf := t.busBytes ++ tail, inLen := 3 } = .next u ∧
      u.status = 0x0#4 ∧ u.wcount = 1 ∧ u.wordAt 0 = w) ∧
  (∀ (s : State) (n : BitVec 4) (ws : List Word) (tail : List Byte),
    ws.length = n.toNat → n.toNat ≤ s.params.maxRespWords →
    s.inBuf = ws.flatMap wordGroup ++ tail → s.inLen = 3 * n.toNat →
    ∃ u : State, exec (.decFrame n) s = .next u ∧ u.status = 0x0#4 ∧ u.wcount = n.toNat ∧
      ∀ (i : Nat) (h : i < ws.length), u.wordAt i = ws[i])

/-- The source's property quoted in R67(c), for whole frames: corrupting any one byte of a good frame ends with ChecksumMismatch, never a false accept. -/
def Obligations.SingleByteCorruptionIsDetected : Prop :=
  ∀ (s : State) (n : BitVec 4) (ws : List Word) (tail : List Byte) (k : Nat) (b : Byte),
    ws.length = n.toNat → n.toNat ≤ s.params.maxRespWords → k < 3 * n.toNat →
    b ≠ (ws.flatMap wordGroup).getD k 0x00#8 →
    s.inBuf = (ws.flatMap wordGroup).set k b ++ tail → s.inLen = 3 * n.toNat →
    ∃ c, exec (.decFrame n) s = .next (State.raise { s with crc := c } .checksumMismatch)

/-- R35, R51: where every byte of a command-with-arguments frame stands. -/
def Obligations.ArgumentFrameLayout : Prop :=
  ∀ (s t : State) (n : BitVec 4) (w : Word), n.toNat ≤ s.params.maxArgWords → isCommandCode w = true →
    exec (.encArgs n w) s = .next t →
    t.outLen = 2 + 3 * n.toNat ∧ t.outByte 0 = hiByte w ∧ t.outByte 1 = loByte w ∧
    ∀ j, j < n.toNat → ∃ a : Word, s.argWord j = some a ∧
      t.outByte (2 + 3 * j) = hiByte a ∧ t.outByte (3 + 3 * j) = loByte a ∧ t.outByte (4 + 3 * j) = crc8 a

/-- R61: REQ = (OP << 28) | (N << 24) | W with RSV = 0, and the rule's examples. -/
def Obligations.RequestEncodingFormula : Prop :=
  (∀ w : Word, (encode (.crc8 w)).toNat = (0 <<< 28) ||| (0 <<< 24) ||| w.toNat ∧
    (encode (.encCmd w)).toNat = (1 <<< 28) ||| (0 <<< 24) ||| w.toNat ∧
    (encode (.encWord w)).toNat = (2 <<< 28) ||| (0 <<< 24) ||| w.toNat) ∧
  (∀ (n : BitVec 4) (w : Word), (encode (.encArgs n w)).toNat = (3 <<< 28) ||| (n.toNat <<< 24) ||| w.toNat) ∧
  (∀ n : BitVec 4, (encode (.decFrame n)).toNat = (4 <<< 28) ||| (n.toNat <<< 24) ||| 0) ∧
  (∀ c : Command, (encode c.instr).toNat = (1 <<< 28) ||| (0 <<< 24) ||| c.code.toNat) ∧
  (∀ i : Instr, rsvOf (encode i) = 0) ∧
  encode (.crc8 0xBEEF#16) = 0x0000BEEF#32 ∧ encode .readMeasurement = 0x1000EC05#32 ∧
  encode (.encWord 0x1234#16) = 0x20001234#32 ∧
  (AsmLine.encArgs (.name .setSensorAltitude) [0x03E8#16]).actions =
    [.writeArg 0 0x03E8#16, .issue 0x31002427#32] ∧
  encode (.decFrame 0x3#4) = 0x43000000#32

/-- R45, R62: decoding the encoding of any well-formed instruction gives it back, with every operand at every value. -/
def Obligations.DecodeUndoesEncode : Prop :=
  ∀ i : Instr, i.wf = true → decodeReq (encode i) = .ok i

/-- R62, D4 ("strict decode keeps every legal request spelled one way"): whatever the decoder accepts is well formed and encodes back to the same REQ. That a listed code never decodes to encCmd, which well-formedness asks, is the model's spelling (log entry 8, DESIGN CHOICE). -/
def Obligations.EncodeUndoesDecode : Prop :=
  ∀ (r : Req) (i : Instr), decodeReq r = .ok i → i.wf = true ∧ encode i = r

/-- R46 to R49, R62: which REQ values the decoder rejects, and under which name. That OP 1 with a listed code decodes to the command's own constructor (bareCommand) is the model's spelling (log entry 8, DESIGN CHOICE). -/
def Obligations.DecoderRejectsByName : Prop :=
  ∀ r : Req,
    decodeReq r =
      if 5 ≤ opOf r then .error .reservedOp
      else if rsvOf r ≠ 0 then .error .reservedField
      else if opOf r ≤ 2 ∧ nOf r ≠ 0 then .error .wordCount
      else if opOf r = 4 ∧ wOf r ≠ 0x0000#16 then .error .wordField
      else .ok (
        if opOf r = 0 then .crc8 (wOf r)
        else if opOf r = 1 then bareCommand (wOf r)
        else if opOf r = 2 then .encWord (wOf r)
        else if opOf r = 3 then .encArgs (BitVec.ofNat 4 (nOf r)) (wOf r)
        else .decFrame (BitVec.ofNat 4 (nOf r)))

/-- R61, V6 to V11: requests written out from the spec decode to the instructions they stand for. That 0x1000EC05 decodes to readMeasurement and not to encCmd is the model's spelling (log entry 8, DESIGN CHOICE). -/
def Obligations.SpecRequestsDecode : Prop :=
  decodeReq 0x0000BEEF#32 = .ok (.crc8 0xBEEF#16) ∧ decodeReq 0x1000EC05#32 = .ok .readMeasurement ∧
  decodeReq 0x10001234#32 = .ok (.encCmd 0x1234#16) ∧ decodeReq 0x20001234#32 = .ok (.encWord 0x1234#16) ∧
  decodeReq 0x31002427#32 = .ok (.encArgs 0x1#4 0x2427#16) ∧ decodeReq 0x43000000#32 = .ok (.decFrame 0x3#4) ∧
  decodeReq 0x50000000#32 = .error .reservedOp ∧ decodeReq 0x00FF1234#32 = .error .reservedField ∧
  decodeReq 0x110021B1#32 = .error .wordCount ∧ decodeReq 0x41000001#32 = .error .wordField

/-- R29, R30: a step whose host action is to write REQ runs the instruction REQ decodes to, in the state with that REQ and the remaining actions; a REQ the decoder rejects ends in IllegalOperation (R57). The list of host actions is the model's (log entry 1, DESIGN CHOICE). That a command code of the opcode table, presented without a REQ, is issued in a bare enc.cmd, and that withFetchWord stands for the host's choice to issue it, are the model's reading (log entries 9 and 10, DEDUCED). -/
def Obligations.StepRunsTheDecodedInstruction : Prop :=
  (∀ (s : State) (r : Req) (i : Instr) (rest : List HostAction), decodeReq r = .ok i →
    step { s with host := .issue r :: rest } = exec i { s with host := rest, req := r }) ∧
  (∀ (s : State) (r : Req) (e : Reject) (rest : List HostAction), decodeReq r = .error e →
    step { s with host := .issue r :: rest } =
      .next (State.raise { s with host := rest, req := r } .illegalOperation)) ∧
  (∀ (s : State) (i : Instr), i.wf = true →
    step { s with host := .issue (encode i) :: s.host } = exec i { s with req := encode i }) ∧
  (∀ (s : State) (w : Nat), step (s.withFetchWord 32 w) =
    step { s with host := .issue (BitVec.ofNat 32 w) :: s.host }) ∧
  (∀ (s : State) (c : Command), step (s.withFetchWord 16 c.code.toNat) =
    exec c.instr { s with req := encode c.instr }) ∧
  (∀ s : State, s.host = [] → step s = .next s)

/-- R7, R15 to R21 as one invariant of the machine, kept by every step from every state that has it. -/
def Obligations.EveryStepKeepsTheInvariant : Prop :=
  ∀ s t : State, s.Wf → step s = .next t → t.Wf

/-- R7, R27: the state right after reset has the invariant, for any parameters in their range. -/
def Obligations.ResetMeetsTheInvariant : Prop :=
  (∀ p : Params, p.wf → (State.resetWith p).Wf) ∧ State.reset.Wf

/-- R105: ready iff (status & 0x07FF) is not zero; bits 15 to 11 are ignored; the corner cases. -/
def Obligations.DataReadyIsTheLowElevenBits : Prop :=
  (∀ w : Word, dataReady w = true ↔ ∃ i, i ≤ 10 ∧ w.getLsbD i = true) ∧
  (∀ w : Word, dataReady w = true ↔ (w &&& 0x07FF#16) ≠ 0x0000#16) ∧
  (∀ w v : Word, (∀ i, i ≤ 10 → v.getLsbD i = w.getLsbD i) → dataReady v = dataReady w) ∧
  dataReady 0x0000#16 = false ∧ dataReady 0x8000#16 = false ∧ dataReady 0xF800#16 = false ∧
  dataReady 0x0001#16 = true ∧ dataReady 0x0400#16 = true ∧ dataReady 0x8006#16 = true ∧
  (∀ s : State, s.status = 0x0#4 → s.wcount = 1 →
    s.interpret .dataReady = .ok (.flag (dataReady (s.wordAt 0))))

/-- R106 (and conflict C2): the self-test failed iff the high byte of the response word is not zero; it applies only when DEC_FRAME returned OK with one word (R109; that another use faults is log entry 12, DEDUCED). -/
def Obligations.SelfTestTestsTheFirstByte : Prop :=
  (∀ w : Word, selfTestFailed w = true ↔ 256 ≤ w.toNat) ∧
  selfTestFailed 0x0000#16 = false ∧ selfTestFailed 0x0100#16 = true ∧ selfTestFailed 0x00FF#16 = false ∧
  (∀ s : State, s.status = 0x0#4 → s.wcount = 1 →
    s.interpret .selfTest = .ok (.flag (selfTestFailed (s.wordAt 0)))) ∧
  (∀ s : State, ¬ (s.status = 0x0#4 ∧ s.wcount = 1) → s.interpret .selfTest = .error .responseNotAvailable)

/-- R107: the 48-bit serial number, first word most significant, with the source's example. -/
def Obligations.SerialNumberIsThreeWords : Prop :=
  (∀ w1 w2 w3 : Word, (serial w1 w2 w3).toNat = w1.toNat * 2 ^ 32 + w2.toNat * 2 ^ 16 + w3.toNat) ∧
  serial 0x1234#16 0x5678#16 0x9ABC#16 = 0x123456789ABC#48 ∧
  serial 0x0000#16 0x0000#16 0x0000#16 = 0x000000000000#48 ∧
  serial 0xFFFF#16 0xFFFF#16 0xFFFF#16 = 0xFFFFFFFFFFFF#48 ∧
  (∀ s : State, s.status = 0x0#4 → s.wcount = 3 →
    s.interpret .serialNumber = .ok (.serial (serial (s.wordAt 0) (s.wordAt 1) (s.wordAt 2))))

/-- R108, R109: end to end, from the word groups on the bus to the value the host reads; and no value, from any function, when STATUS is not OK or WCOUNT is not the number of words it needs. That such a use is a fault of an action that reads STATUS and WCOUNT is the model's reading (log entry 12, DEDUCED). -/
def Obligations.ResponsesReachTheHostUnchanged : Prop :=
  (∀ (s : State) (a b c : Word) (tail : List Byte), 3 ≤ s.params.maxRespWords →
    s.inBuf = [a, b, c].flatMap wordGroup ++ tail → s.inLen = 9 →
    ∃ u : State, exec (.decFrame 0x3#4) s = .next u ∧
      u.interpret .measurement = .ok (.measurement a b c) ∧
      u.interpret .serialNumber = .ok (.serial (serial a b c)) ∧
      u.interpret .dataReady = .error .responseNotAvailable) ∧
  (∀ (s : State) (a : Word) (tail : List Byte), 1 ≤ s.params.maxRespWords →
    s.inBuf = wordGroup a ++ tail → s.inLen = 3 →
    ∃ u : State, exec (.decFrame 0x1#4) s = .next u ∧
      u.interpret .dataReady = .ok (.flag (dataReady a)) ∧
      u.interpret .selfTest = .ok (.flag (selfTestFailed a)) ∧
      u.interpret .serialNumber = .error .responseNotAvailable) ∧
  (∀ (s : State) (f : ResponseField), ¬ (s.status = 0x0#4 ∧ s.wcount = f.wordCount) →
    s.interpret f = .error .responseNotAvailable) ∧
  (∀ (s : State) (f : ResponseField) (c : StatusCode), c ≠ .ok →
    (s.raise c).interpret f = .error .responseNotAvailable) ∧
  (∀ w : Word, co2Ppm w = w)

/-- R15, R16, R30, R38, R59: which registers each write of the host changes (one; IN and IN_LEN together for a loaded or received frame), and that it changes nothing else. That IN bytes and IN_LEN can be written separately, and that a byte write leaves IN_LEN, is the model's reading (log entry 19, DEDUCED); that a recv which delivers fewer bytes than it asked for sets IN_LEN to their number is its choice (log entry 25, DESIGN CHOICE), since R38 gives IN_LEN for a complete read only; that send and wait change nothing is log entry 15 (DEDUCED). -/
def Obligations.HostWritesChangeTheirRegistersOnly : Prop :=
  ∀ (s : State) (rest : List HostAction),
    (∀ j a, j < s.params.maxArgWords →
      step { s with host := .writeArg j a :: rest } = .next { s with host := rest, arg := s.arg.set j (some a) }) ∧
    (∀ i b, i < s.params.inCap →
      step { s with host := .writeIn i b :: rest } = .next { s with host := rest, inBuf := s.inBuf.set i b }) ∧
    (∀ n, n ≤ s.params.inCap →
      step { s with host := .writeInLen n :: rest } = .next { s with host := rest, inLen := n }) ∧
    (∀ bytes : List Byte, bytes.length ≤ s.params.inCap → s.inBuf.length = s.params.inCap →
      ∃ buf : List Byte, buf.length = s.params.inCap ∧
        (∀ (i : Nat) (h : i < bytes.length), buf.getD i 0x00#8 = bytes[i]) ∧
        step { s with host := .loadFrame bytes :: rest } =
          .next { s with host := rest, inBuf := buf, inLen := bytes.length } ∧
        step { s with host := .recv bytes :: rest } =
          .next { s with host := rest, inBuf := buf, inLen := bytes.length }) ∧
    step { s with host := .send :: rest } = .next { s with host := rest } ∧
    (∀ ms, step { s with host := .wait ms :: rest } = .next { s with host := rest })

/-- R127, R128: after reset a request is accepted at once, and `dec.frame 0` succeeds. -/
def Obligations.EmptyFrameDecodesRightAfterReset : Prop :=
  ∀ (p : Params) (rest : List HostAction),
    step { State.resetWith p with host := .issue 0x40000000#32 :: rest } =
      .next { State.resetWith p with host := rest, req := 0x40000000#32 }

/-- R60 and log entry 8: enc.args with no argument words does what enc.cmd does with the same code, and a command's own instruction does what enc.cmd does with its code. -/
def Obligations.EncArgsWithoutArgumentsIsEncCmd : Prop :=
  (∀ (w : Word) (s : State), exec (.encArgs 0x0#4 w) s = exec (.encCmd w) s) ∧
  (∀ (c : Command) (s : State), exec (.encCmd c.code) s = exec c.instr s)

/-- R134: the precondition and result of each operation of the sensor's lifecycle, and that the block encodes any listed command in any order. That ReadMeasurement is allowed in SingleShotPending without a condition of its own, its 'after delay' being the delay of MeasureSingleShot, is the model's reading (log entry 17, DEDUCED). -/
def Obligations.LifecycleOrder : Prop :=
  (∀ st : SensorState, Command.after .wakeUp st = some .idle) ∧
  (∀ st u : SensorState,
    (Command.after .powerDown st = some u ↔ (st = .idle ∨ st = .periodicMeasuring) ∧ u = .asleep) ∧
    (Command.after .stopPeriodicMeasurement st = some u ↔ (st = .periodicMeasuring ∨ st = .idle) ∧ u = .idle) ∧
    (Command.after .startPeriodicMeasurement st = some u ↔ st = .idle ∧ u = .periodicMeasuring) ∧
    (Command.after .measureSingleShot st = some u ↔ st = .idle ∧ u = .singleShotPending) ∧
    (Command.after .readMeasurement st = some u ↔ (st = .periodicMeasuring ∨ st = .singleShotPending) ∧ u = st) ∧
    (Command.after .getDataReadyStatus st = some u ↔
      (st = .periodicMeasuring ∨ st = .singleShotPending) ∧ u = st) ∧
    (Command.after .reinit st = some u ↔ st = .idle ∧ u = .idle) ∧
    (Command.after .performSelfTest st = some u ↔ st = .idle ∧ u = .idle) ∧
    (Command.after .performFactoryReset st = some u ↔ st = .idle ∧ u = .idle) ∧
    (Command.after .getSerialNumber st = some u ↔ (st = .idle ∨ st = .asleep) ∧ u = st)) ∧
  (∀ (c : Command) (s : State), s.Answers (commandReq c.code) (.ok (be16Split c.code) []))

/-- R130: from every state of the machine and every sensor state with no delay owed and no response outstanding, the host's initialisation sequence keeps the obligations of R128, R131 and R133 to R135 and ends with the sensor idle, no delay owed and no response outstanding; the machine runs it to its end without a fault, and the host then reads the serial number, or the self-test result, of the words delivered. Without the delivery of the self-test response the sequence breaks an obligation. How the obligations are read is the model's (log entry 20, DEDUCED), the gap of a write-then-read is a free parameter (log entry 21, DESIGN CHOICE). -/
def Obligations.InitSequenceKeepsTheHostObligations : Prop :=
  ∀ (s : State) (t : HostTrack) (serialFrame selfTestFrame : List Byte),
    s.Wf → 3 ≤ s.params.maxRespWords → t.waitMs = 0 → t.pending = none → serialFrame.length = 9 → selfTestFrame.length = 3 →
    ((∃ u, t.run s.params (initSequence serialFrame none) = some u ∧ u.sensor = .idle ∧ u.waitMs = 0 ∧
        u.gapMs = 0 ∧ u.pending = none) ∧
      ∃ v, Sys2Proof.core.run 11 { s with host := initSequence serialFrame none } = .next v ∧ v.host = [] ∧ v.Wf ∧
        ∀ a b c : Word, serialFrame = [a, b, c].flatMap wordGroup →
          v.interpret .serialNumber = .ok (.serial (serial a b c))) ∧
    ((∃ u, t.run s.params (initSequence serialFrame (some selfTestFrame)) = some u ∧ u.sensor = .idle ∧
        u.waitMs = 0 ∧ u.gapMs = 0 ∧ u.pending = none) ∧
      ∃ v, Sys2Proof.core.run 16 { s with host := initSequence serialFrame (some selfTestFrame) } = .next v ∧
        v.host = [] ∧ v.Wf ∧
        ∀ a : Word, selfTestFrame = wordGroup a → v.interpret .selfTest = .ok (.flag (selfTestFailed a))) ∧
    t.run s.params (initSequence serialFrame none ++
      assemble [.encCmd (.name .performSelfTest), .action .send, .action (.wait 10000), .decWord]) = none

/-- R28: a step of one instance of the block leaves every other instance as it is, and is the step that instance would take alone. -/
def Obligations.InstancesShareNothing : Prop :=
  ∀ (k : Nat) (l m : List State), stepInstance k l = .next m →
    m.length = l.length ∧ (∀ j, j ≠ k → m[j]? = l[j]?) ∧
    (∀ s, l[k]? = some s → ∃ t, step s = .next t ∧ m[k]? = some t)

/-- R15, R16, R128: a host program that keeps the obligations, as the model reads them (log entries 6 and 20, DESIGN CHOICE and DEDUCED), runs to its end without a fault from every state of the machine that the host's knowledge describes, and what the host knows at the end describes the last state. Programs that apply response functions are left to StepFaultsExactlyWhen, since their fault depends on the data delivered (R109). -/
def Obligations.KeptObligationsRunWithoutFault : Prop :=
  ∀ (s : State) (t u : HostTrack), s.Wf → t.Describes s → t.run s.params s.host = some u →
    (∀ f, .interpret f ∉ s.host) →
    ∃ v, Sys2Proof.core.run s.host.length s = .next v ∧ v.host = [] ∧ v.Wf ∧ v.params = s.params ∧ u.Describes v

/-- R121, R128, R129, R131, R133, R135: what a host that keeps its obligations never does, whatever it does afterwards. How the obligations are read is the model's (log entries 20, 21 and 23). -/
def Obligations.BrokenObligationsAreRefused : Prop :=
  ∀ (p : Params) (t : HostTrack) (rest : List HostAction),
    (∀ r, opOf r = 3 → rsvOf r = 0 → (∃ j, j < nOf r ∧ j ∉ t.argReady) → t.run p (.issue r :: rest) = none) ∧
    (∀ r, opOf r = 4 → rsvOf r = 0 → wOf r = 0x0000#16 → nOf r ≠ 0 →
      (t.inLen ≠ 3 * nOf r ∨ t.pending ≠ none ∨ ∃ i, i < 3 * nOf r ∧ i ∉ t.inReady) →
      t.run p (.issue r :: rest) = none) ∧
    ((t.encoded = none ∨ t.waitMs ≠ 0 ∨ (∃ c, t.pending = some c ∧ c.delayMs = 0) ∨
        ∃ c, t.encoded = some c ∧ c.after t.sensor = none) →
      t.run p (.send :: rest) = none) ∧
    (∀ bytes, (t.pending = none ∨ t.waitMs ≠ 0 ∨ t.gapMs ≠ 0 ∨
        ∃ c, t.pending = some c ∧ 3 * c.respWords < bytes.length) → t.run p (.recv bytes :: rest) = none) ∧
    (∀ r, opOf r ≠ 1 → opOf r ≠ 3 → t.run p (.issue r :: .send :: rest) = none) ∧
    (∀ c : Command, c.after .uninitialized = none →
      t.run p (.reset :: .issue (commandReq c.code) :: .send :: rest) = none) ∧
    (∀ bytes, t.run p (.reset :: .recv bytes :: rest) = none)
end

