-- ==== Sys2Proof/Laws/Decode.lean ====
section
/-! SUPPORT. Laws/Decode.lean: the fields of a packed REQ, and the command lookup. -/

namespace Sys2Proof

theorem getLsbD_packReq (op n : BitVec 4) (w : Word) (i : Nat) :
    (packReq op n w).getLsbD i =
      if i < 16 then w.getLsbD i else if i < 24 then false
      else if i < 28 then n.getLsbD (i - 24) else op.getLsbD (i - 28) := by
  simp only [packReq, BitVec.getLsbD_append, Nat.sub_sub, BitVec.getLsbD_zero]
  split_ifs <;> first | rfl | omega

@[simp] theorem reqOp_packReq (op n : BitVec 4) (w : Word) : reqOp (packReq op n w) = op := by
  apply BitVec.eq_of_getLsbD_eq
  intro i hi
  rw [reqOp, BitVec.getLsbD_extractLsb', getLsbD_packReq, if_neg (by omega), if_neg (by omega),
    if_neg (by omega)]
  simp [hi]

@[simp] theorem reqN_packReq (op n : BitVec 4) (w : Word) : reqN (packReq op n w) = n := by
  apply BitVec.eq_of_getLsbD_eq
  intro i hi
  rw [reqN, BitVec.getLsbD_extractLsb', getLsbD_packReq, if_neg (by omega), if_neg (by omega),
    if_pos (by omega)]
  simp [hi]

@[simp] theorem reqRsv_packReq (op n : BitVec 4) (w : Word) : reqRsv (packReq op n w) = 0 := by
  apply BitVec.eq_of_getLsbD_eq
  intro i hi
  rw [reqRsv, BitVec.getLsbD_extractLsb', getLsbD_packReq, if_neg (by omega), if_pos (by omega)]
  simp

@[simp] theorem reqW_packReq (op n : BitVec 4) (w : Word) : reqW (packReq op n w) = w := by
  apply BitVec.eq_of_getLsbD_eq
  intro i hi
  rw [reqW, BitVec.getLsbD_extractLsb', getLsbD_packReq, if_pos (by omega)]
  simp [hi]

/-- The code of a command looks the command up (R52: the codes are pairwise distinct). -/
theorem Command.ofCode?_code (c : Command) : Command.ofCode? c.code = some c := by
  cases c <;> decide

/-- A looked-up command has the code it was looked up by. -/
theorem Command.code_of_ofCode? {w : Word} {c : Command} (h : Command.ofCode? w = some c) : c.code = w := by
  simpa using List.find?_some h

end Sys2Proof
end

