-- ==== Sys2Proof/Laws/State.lean ====
section
/-! SUPPORT. Laws/State.lean: one lemma per field and update, so that no later proof unfolds a record update. -/

namespace Sys2Proof.Machine

variable (s : State) (w : Word) (b : Byte)

@[simp] theorem State.crcStart_crc : s.crcStart.crc = crcInit := rfl
@[simp] theorem State.crcAbsorb_crc : (s.crcAbsorb b).crc = crcStep s.crc b := rfl

@[simp] theorem State.crcWord_params : (s.crcWord w).params = s.params := rfl
@[simp] theorem State.crcWord_host : (s.crcWord w).host = s.host := rfl
@[simp] theorem State.crcWord_req : (s.crcWord w).req = s.req := rfl
@[simp] theorem State.crcWord_arg : (s.crcWord w).arg = s.arg := rfl
@[simp] theorem State.crcWord_inBuf : (s.crcWord w).inBuf = s.inBuf := rfl
@[simp] theorem State.crcWord_inLen : (s.crcWord w).inLen = s.inLen := rfl
@[simp] theorem State.crcWord_out : (s.crcWord w).out = s.out := rfl
@[simp] theorem State.crcWord_outLen : (s.crcWord w).outLen = s.outLen := rfl
@[simp] theorem State.crcWord_words : (s.crcWord w).words = s.words := rfl
@[simp] theorem State.crcWord_wcount : (s.crcWord w).wcount = s.wcount := rfl
@[simp] theorem State.crcWord_status : (s.crcWord w).status = s.status := rfl

variable (res : Result) (bytes : List Byte) (ws : List Word) (c : StatusCode)

@[simp] theorem State.writeResult_params : (s.writeResult res).params = s.params := by cases res <;> rfl
@[simp] theorem State.writeResult_host : (s.writeResult res).host = s.host := by cases res <;> rfl
@[simp] theorem State.writeResult_req : (s.writeResult res).req = s.req := by cases res <;> rfl
@[simp] theorem State.writeResult_arg : (s.writeResult res).arg = s.arg := by cases res <;> rfl
@[simp] theorem State.writeResult_inBuf : (s.writeResult res).inBuf = s.inBuf := by cases res <;> rfl
@[simp] theorem State.writeResult_inLen : (s.writeResult res).inLen = s.inLen := by cases res <;> rfl
@[simp] theorem State.writeResult_crc : (s.writeResult res).crc = s.crc := by cases res <;> rfl

@[simp] theorem State.writeResult_ok_out :
    (s.writeResult (.ok bytes ws)).out = fillTo s.params.outCap 0x00#8 bytes := rfl
@[simp] theorem State.writeResult_ok_outLen : (s.writeResult (.ok bytes ws)).outLen = bytes.length := rfl
@[simp] theorem State.writeResult_ok_words :
    (s.writeResult (.ok bytes ws)).words = fillTo s.params.maxRespWords 0x0000#16 ws := rfl
@[simp] theorem State.writeResult_ok_wcount : (s.writeResult (.ok bytes ws)).wcount = ws.length := rfl
@[simp] theorem State.writeResult_ok_status :
    (s.writeResult (.ok bytes ws)).status = StatusCode.ok.code := rfl
@[simp] theorem State.writeResult_err_out :
    (s.writeResult (.err c)).out = fillTo s.params.outCap 0x00#8 [] := rfl
@[simp] theorem State.writeResult_err_outLen : (s.writeResult (.err c)).outLen = 0 := rfl
@[simp] theorem State.writeResult_err_words :
    (s.writeResult (.err c)).words = fillTo s.params.maxRespWords 0x0000#16 [] := rfl
@[simp] theorem State.writeResult_err_wcount : (s.writeResult (.err c)).wcount = 0 := rfl
@[simp] theorem State.writeResult_err_status : (s.writeResult (.err c)).status = c.code := rfl

@[simp] theorem State.raise_eq : s.raise c = s.writeResult (.err c) := rfl

@[simp] theorem State.hardReset_params : s.hardReset.params = s.params := rfl
@[simp] theorem State.hardReset_host : s.hardReset.host = s.host := rfl

end Sys2Proof.Machine
end

