-- ==== Sys2Proof/Laws/Ops.lean ====
section
/-! SUPPORT. Laws/Ops.lean: what each shared operation does, once. -/

namespace Sys2Proof.Machine

theorem fillTo_length {α : Type} (n : Nat) (z : α) (l : List α) : (fillTo n z l).length = n := by
  simp [fillTo]; omega

theorem fillTo_of_le {α : Type} {n : Nat} {z : α} {l : List α} (h : l.length ≤ n) :
    fillTo n z l = l ++ List.replicate (n - l.length) z := by
  simp [fillTo, List.take_of_length_le h]

/-- The CRC register after a word holds the word's CRC byte (R22, R64). -/
theorem State.crcWord_crcByte (s : State) (w : Word) : (s.crcWord w).crcByte = crc8 w := rfl

theorem State.crcWord_eq (s : State) (w : Word) :
    s.crcWord w = { s with crc := crcStep (crcStep crcInit (hiByte w)) (loByte w) } := rfl

@[simp] theorem crcXorOut_xor (b : Byte) : b ^^^ crcXorOut = b := by simp [crcXorOut]

/-- The reads of the input registers do not see the CRC register. -/
@[simp] theorem State.crcWord_inByte (s : State) (w : Word) (i : Nat) :
    (s.crcWord w).inByte i = s.inByte i := rfl
@[simp] theorem State.crcWord_argWord (s : State) (w : Word) (j : Nat) :
    (s.crcWord w).argWord j = s.argWord j := rfl

/-- What `argGroups` answers: the word groups of the arguments the host wrote, and only the CRC register moved; or the
first index that holds no value. -/
theorem State.argGroups_spec (k : Nat) : ∀ (s : State) (j : Nat),
    match readArgs s.arg j k with
    | .error e => s.argGroups j k = .error e
    | .ok args => ∃ c, s.argGroups j k = .ok (args.flatMap wordGroup, { s with crc := c }) := by
  induction k with
  | zero => intro s j; exact ⟨s.crc, rfl⟩
  | succ k ih =>
    intro s j
    have h := ih (s.crcWord ((s.argWord j).getD 0)) (j + 1)
    simp only [readArgs, State.argGroups]
    unfold State.argWord at *
    cases ha : s.arg.getD j none with
    | none => rfl
    | some a =>
      simp only [ha, Option.getD_some, State.crcWord_arg] at h
      cases hr : readArgs s.arg (j + 1) k with
      | error e => simp only [hr] at h; simp [h]
      | ok args =>
        simp only [hr] at h
        obtain ⟨c, hc⟩ := h
        exact ⟨c, by simp only [hc]; simp [wordGroup, State.crcWord_crcByte]⟩

/-- What `frameWords` answers: the words of the groups from `i` on, `none` where one does not match, and only the CRC
register moved. -/
theorem State.frameWords_spec (k : Nat) : ∀ (s : State) (i : Nat),
    ∃ c, s.frameWords i k = ((List.range' i k).mapM (groupAt s.inBuf), { s with crc := c }) := by
  induction k with
  | zero => intro s i; exact ⟨s.crc, rfl⟩
  | succ k ih =>
    intro s i
    let w := be16Join (s.inByte (3 * i)) (s.inByte (3 * i + 1))
    obtain ⟨c, hc⟩ := ih (s.crcWord w) (i + 1)
    by_cases hm : crc8 w = s.inByte (3 * i + 2)
    · have hg : groupAt s.inBuf i = some w := if_pos hm
      refine ⟨c, ?_⟩
      simp only [State.frameWords, State.crcWord_crcByte, hm, w, hc, List.range'_succ, List.mapM_cons, hg,
        State.crcWord_inBuf, if_true]
      cases (List.range' (i + 1) k).mapM (groupAt s.inBuf) <;> rfl
    · have hg : groupAt s.inBuf i = none := if_neg hm
      refine ⟨(s.crcWord w).crc, ?_⟩
      simp only [State.frameWords, State.crcWord_crcByte, hm, w, List.range'_succ, List.mapM_cons, hg, if_false]
      rfl

end Sys2Proof.Machine
end

