-- ==== Sys2Proof/Laws/Request.lean ====
section
/-! SUPPORT. Laws/Request.lean: the fields of REQ as numbers, what each meaning answers in terms of the pure functions
of Machine/Reference.lean, and what a step is for each host action. -/

namespace Sys2Proof.Machine

theorem reqOp_toNat (r : Req) : (reqOp r).toNat = opOf r := by
  simp [reqOp, opOf, Nat.shiftRight_eq_div_pow]; omega

theorem reqN_toNat (r : Req) : (reqN r).toNat = nOf r := by
  simp [reqN, nOf, Nat.shiftRight_eq_div_pow]

theorem reqRsv_toNat (r : Req) : (reqRsv r).toNat = rsvOf r := by
  simp [reqRsv, rsvOf, Nat.shiftRight_eq_div_pow]

theorem reqW_eq_wOf (r : Req) : reqW r = wOf r := by
  apply BitVec.eq_of_toNat_eq
  simp [reqW, wOf]

theorem reqOp_eq_iff (r : Req) (k : BitVec 4) : reqOp r = k ↔ opOf r = k.toNat := by
  rw [← reqOp_toNat]; exact ⟨fun h => h ▸ rfl, BitVec.eq_of_toNat_eq⟩

theorem reqN_eq_zero_iff (r : Req) : reqN r = 0 ↔ nOf r = 0 := by
  rw [← reqN_toNat]; exact ⟨fun h => by simp [h], fun h => BitVec.eq_of_toNat_eq (by simpa using h)⟩

theorem reqRsv_eq_zero_iff (r : Req) : reqRsv r = 0 ↔ rsvOf r = 0 := by
  rw [← reqRsv_toNat]; exact ⟨fun h => by simp [h], fun h => BitVec.eq_of_toNat_eq (by simpa using h)⟩

theorem reqN_eq_ofNat (r : Req) : reqN r = BitVec.ofNat 4 (nOf r) := by
  rw [← reqN_toNat]; simp

theorem opOf_lt (r : Req) : opOf r < 16 := by rw [← reqOp_toNat]; exact (reqOp r).isLt
theorem nOf_lt (r : Req) : nOf r < 16 := by rw [← reqN_toNat]; exact (reqN r).isLt

/-- CRC8 answers a next state (R65). -/
theorem execCrc8_eq (w : Word) (s : State) :
    execCrc8 w s = .next (State.writeResult { s with crc := crc8 w } (.ok [crc8 w] [])) := by
  simp only [execCrc8, State.crcWord_crcByte]
  simp [State.crcWord_eq, crc8]

/-- ENC_WORD answers a next state (R74). -/
theorem execEncWord_eq (w : Word) (s : State) :
    execEncWord w s = .next (State.writeResult { s with crc := crc8 w } (.ok (wordGroup w) [])) := by
  simp only [execEncWord, State.crcWord_crcByte]
  simp [State.crcWord_eq, wordGroup, crc8]

/-- What ENC_CMD_ARGS answers for a legal N and a listed code (R75). -/
theorem execEncArgs_spec (n : BitVec 4) (w : Word) (s : State) (hn : n.toNat ≤ s.params.maxArgWords)
    (hw : isCommandCode w = true) :
    match readArgs s.arg 0 n.toNat with
    | .error e => execEncArgs n w s = .fault e
    | .ok args => ∃ c, execEncArgs n w s =
        .next (State.writeResult { s with crc := c } (.ok (be16Split w ++ args.flatMap wordGroup) [])) := by
  have h := State.argGroups_spec n.toNat s 0
  cases hr : readArgs s.arg 0 n.toNat with
  | error e =>
    simp only [hr] at h
    simp [execEncArgs, Nat.not_lt.mpr hn, hw, h]
  | ok args =>
    simp only [hr] at h
    obtain ⟨c, hc⟩ := h
    exact ⟨c, by simp [execEncArgs, Nat.not_lt.mpr hn, hw, hc]⟩

/-- What DEC_FRAME answers for a legal N and a frame of the right length (R76). -/
theorem execDecFrame_spec (n : BitVec 4) (s : State) (hn : n.toNat ≤ s.params.maxRespWords)
    (hl : s.inLen = 3 * n.toNat) :
    ∃ c, execDecFrame n s = .next (State.writeResult { s with crc := c }
      (match decodeFrame s.inBuf n.toNat with
       | some ws => .ok [] ws
       | none => .err .checksumMismatch)) := by
  obtain ⟨c, hc⟩ := State.frameWords_spec n.toNat s 0
  refine ⟨c, ?_⟩
  simp only [execDecFrame, Nat.not_lt.mpr hn, hl, if_false, ne_eq, not_true, hc, decodeFrame, List.range_eq_range']
  cases (List.range' 0 n.toNat).mapM (groupAt s.inBuf) <;> rfl

variable (s : State) (rest : List HostAction)

theorem step_writeArg (j : Nat) (a : Word) :
    step { s with host := .writeArg j a :: rest } = State.writeArg { s with host := rest } j a := rfl
theorem step_writeIn (i : Nat) (b : Byte) :
    step { s with host := .writeIn i b :: rest } = State.writeIn { s with host := rest } i b := rfl
theorem step_writeInLen (n : Nat) :
    step { s with host := .writeInLen n :: rest } = State.writeInLen { s with host := rest } n := rfl
theorem step_loadFrame (bytes : List Byte) :
    step { s with host := .loadFrame bytes :: rest } = State.loadFrame { s with host := rest } bytes := rfl
theorem step_issue (r : Req) :
    step { s with host := .issue r :: rest } = State.issueRequest { s with host := rest } r := rfl
theorem step_recv (bytes : List Byte) :
    step { s with host := .recv bytes :: rest } = State.loadFrame { s with host := rest } bytes := rfl
theorem step_interpret (f : ResponseField) :
    step { s with host := .interpret f :: rest } = State.useResponse { s with host := rest } f := rfl

end Sys2Proof.Machine
end

