-- ==== Sys2Proof/Laws/Exec.lean ====
section
/-! SUPPORT. Laws/Exec.lean: the argument and frame readers of Machine/Reference.lean by their elements, everything
an instruction can do, once, and runs of several steps. -/

namespace Sys2Proof.Machine

theorem Params.three_le_outCap (p : Params) : 3 ≤ p.outCap := by unfold Params.outCap; omega

theorem Params.args_le_outCap {p : Params} {n : Nat} (h : n ≤ p.maxArgWords) : 2 + 3 * n ≤ p.outCap := by
  unfold Params.outCap; omega

theorem fillTo_nil {α : Type} (n : Nat) (z : α) : fillTo n z [] = List.replicate n z := by simp [fillTo]

theorem wordGroups_length (ws : List Word) : (ws.flatMap wordGroup).length = 3 * ws.length := by
  induction ws with
  | nil => rfl
  | cons a l ih => simp [ih, wordGroup, be16Split]; omega

/-- The arguments that were read are the written elements, and there are as many as asked for. -/
theorem readArgs_ok {arg : List (Option Word)} : ∀ (k j : Nat) (args : List Word), readArgs arg j k = .ok args →
    args.length = k ∧ ∀ (i : Nat) (h : i < args.length), arg.getD (j + i) none = some args[i] := by
  intro k
  induction k with
  | zero => intro j args h; cases h; simp
  | succ k ih =>
    intro j args h
    simp only [readArgs] at h
    split at h
    · cases h
    · cases h
    · rename_i h1 h2
      cases h
      obtain ⟨e1, e2⟩ := ih _ _ h2
      refine ⟨by simp [e1], fun i hi => ?_⟩
      cases i with
      | zero => simpa using h1
      | succ i => have := e2 i (by simpa using hi); rw [show j + (i + 1) = j + 1 + i by omega, this]; rfl

/-- A failed read names the first index that holds no value. -/
theorem readArgs_error {arg : List (Option Word)} : ∀ (k j : Nat) (e : Fault), readArgs arg j k = .error e →
    ∃ i, j ≤ i ∧ i < j + k ∧ arg.getD i none = none ∧ (∀ l, j ≤ l → l < i → arg.getD l none ≠ none) ∧
      e = .argNotWritten i := by
  intro k
  induction k with
  | zero => intro j e h; cases h
  | succ k ih =>
    intro j e h
    simp only [readArgs] at h
    split at h
    · cases h; rename_i h1; exact ⟨j, le_refl _, by omega, h1, fun l _ _ => by omega, rfl⟩
    · rename_i h1 h2
      cases h
      obtain ⟨i, b1, b2, b3, b4, b5⟩ := ih _ _ h2
      refine ⟨i, by omega, by omega, b3, fun l l1 l2 => ?_, b5⟩
      rcases Nat.lt_or_ge j l with q | q
      · exact b4 l q l2
      · have : l = j := by omega
        subst this; rw [h1]; simp
    · cases h

/-- `mapM` over a list of indices, by its elements. -/
theorem mapM_eq_some {f : Nat → Option Word} : ∀ (l : List Nat) (ws : List Word), l.length = ws.length →
    (∀ (i : Nat) (h : i < l.length) (h2 : i < ws.length), f l[i] = some ws[i]) → l.mapM f = some ws := by
  intro l
  induction l with
  | nil => intro ws h _; cases ws; rfl; simp at h
  | cons x l ih =>
    intro ws h hh
    match ws, h with
    | w :: ws, h =>
      have h0 := hh 0 (by simp) (by simp)
      have := ih ws (by simpa using h) (fun i h1 h2 => hh (i + 1) (by simpa using h1) (by simpa using h2))
      simp only [List.getElem_cons_zero] at h0
      simp [List.mapM_cons, h0, this]

theorem mapM_eq_none {f : Nat → Option Word} : ∀ (l : List Nat) (x : Nat), x ∈ l → f x = none → l.mapM f = none := by
  intro l
  induction l with
  | nil => intro x h; simp at h
  | cons y l ih =>
    intro x h hf
    rw [List.mapM_cons]
    rcases List.mem_cons.mp h with rfl | h
    · rw [hf]; rfl
    · rw [ih x h hf]; cases f y <;> rfl

/-- A frame whose groups all match decodes to their words. -/
theorem decodeFrame_eq_some {b : List Byte} {n : Nat} {ws : List Word} (hl : ws.length = n)
    (h : ∀ (i : Nat) (h : i < ws.length), groupAt b i = some ws[i]) : decodeFrame b n = some ws :=
  mapM_eq_some _ _ (by simp [hl]) fun i _ h2 => by simpa using h i h2

/-- A frame with a group that does not match does not decode. -/
theorem decodeFrame_eq_none {b : List Byte} {n i : Nat} (hi : i < n) (h : groupAt b i = none) :
    decodeFrame b n = none := mapM_eq_none _ i (by simpa using hi) h

/-- The two ways a frame can decode. -/
theorem decodeFrame_cases (b : List Byte) (n : Nat) :
    (∃ i, i < n ∧ groupAt b i = none ∧ decodeFrame b n = none) ∨
    (∃ ws : List Word, ws.length = n ∧ (∀ (i : Nat) (h : i < ws.length), groupAt b i = some ws[i]) ∧
      decodeFrame b n = some ws) := by
  by_cases h : ∃ i, i < n ∧ groupAt b i = none
  · obtain ⟨i, h1, h2⟩ := h
    exact .inl ⟨i, h1, h2, decodeFrame_eq_none h1 h2⟩
  · push Not at h
    right
    have h' : ∀ i : Fin n, ∃ w, groupAt b i = some w := fun i => Option.ne_none_iff_exists'.mp (h i i.isLt)
    choose f hf using h'
    have key : ∀ (i : Nat) (h : i < (List.ofFn f).length), groupAt b i = some (List.ofFn f)[i] := by
      intro i hi; simp at hi; simpa using hf ⟨i, hi⟩
    exact ⟨List.ofFn f, by simp, key, decodeFrame_eq_some (by simp) key⟩

/-- Everything an instruction can do: it faults on an argument that was never written, or it moves the CRC register
and writes a result. -/
theorem exec_cases (i : Instr) (s : State) :
    (∃ j, exec i s = .fault (.argNotWritten j)) ∨
    ∃ c res, exec i s = .next (State.writeResult { s with crc := c } res) := by
  cases i
  case crc8 w => exact .inr ⟨_, _, execCrc8_eq w s⟩
  case encWord w => exact .inr ⟨_, _, execEncWord_eq w s⟩
  case encCmd w =>
    simp only [exec, execEncCmd]
    split_ifs
    · exact .inr ⟨s.crc, _, rfl⟩
    · exact .inr ⟨s.crc, _, rfl⟩
  case encArgs n w =>
    simp only [exec, execEncArgs]
    split_ifs
    · exact .inr ⟨s.crc, _, rfl⟩
    · exact .inr ⟨s.crc, _, rfl⟩
    · have := State.argGroups_spec n.toNat s 0
      cases h : readArgs s.arg 0 n.toNat with
      | error e =>
        simp only [h] at this
        obtain ⟨m, _, _, _, _, rfl⟩ := readArgs_error _ _ _ h
        exact .inl ⟨m, by rw [this]⟩
      | ok a => simp only [h] at this; obtain ⟨c, hc⟩ := this; exact .inr ⟨c, _, by rw [hc]⟩
  case decFrame n =>
    simp only [exec]
    by_cases h : s.params.maxRespWords < n.toNat
    · exact .inr ⟨s.crc, _, by rw [execDecFrame, if_pos h]; rfl⟩
    · by_cases h2 : s.inLen = 3 * n.toNat
      · obtain ⟨c, hc⟩ := execDecFrame_spec n s (by omega) h2; exact .inr ⟨c, _, hc⟩
      · exact .inr ⟨s.crc, _, by rw [execDecFrame, if_neg h, if_pos h2]; rfl⟩
  all_goals exact .inr ⟨s.crc, _, rfl⟩

/-- A run whose first step is known. -/
theorem run_succ {k : Nat} {s v : State} (h : step s = .next v) :
    Sys2Proof.core.run (k + 1) s = Sys2Proof.core.run k v := by
  have h' : Sys2Proof.core.step s = .next v := h
  simp only [Host.Core.run, h']

/-- A run in two parts. -/
theorem run_add : ∀ (a b : Nat) (s v : State), Sys2Proof.core.run a s = .next v →
    Sys2Proof.core.run (a + b) s = Sys2Proof.core.run b v := by
  intro a
  induction a with
  | zero => intro b s v h; cases h; rw [Nat.zero_add]
  | succ a ih =>
    intro b s v h
    rw [show a + 1 + b = (a + b) + 1 by omega]
    simp only [Host.Core.run] at h ⊢
    cases hs : Sys2Proof.core.step s with
    | next z => simp only [hs] at h ⊢; exact ih b z v h
    | fault e => simp only [hs] at h; cases h
    | refused e => simp only [hs] at h; cases h

end Sys2Proof.Machine
end

