-- ==== Sys2Proof/Laws/PerInstr.lean ====
section
/-! SUPPORT. Laws/PerInstr.lean: the per-instruction family TableRow: the encoding of every instruction fits the match
and mask of its row of spec/opcode_table.json (a CMD16 row's word stands in the W field of `enc.cmd`). -/

namespace Sys2Proof.Laws.TableRow

/-- The row's mask and match, as spec/opcode_table.json writes them; a command's row is that of `enc.cmd` with the
row's 16 bits as W. -/
def row : Instr → Req × Req
  | .crc8 _ => (0xFFFF0000#32, 0x00000000#32)
  | .encCmd _ => (0xFFFF0000#32, 0x10000000#32)
  | .encWord _ => (0xFFFF0000#32, 0x20000000#32)
  | .encArgs _ _ => (0xF0FF0000#32, 0x30000000#32)
  | .decFrame _ => (0xF0FFFFFF#32, 0x40000000#32)
  | .startPeriodicMeasurement => (0xFFFFFFFF#32, 0x100021B1#32)
  | .readMeasurement => (0xFFFFFFFF#32, 0x1000EC05#32)
  | .stopPeriodicMeasurement => (0xFFFFFFFF#32, 0x10003F86#32)
  | .setTemperatureOffset => (0xFFFFFFFF#32, 0x1000241D#32)
  | .getTemperatureOffset => (0xFFFFFFFF#32, 0x10002318#32)
  | .setSensorAltitude => (0xFFFFFFFF#32, 0x10002427#32)
  | .getSensorAltitude => (0xFFFFFFFF#32, 0x10002322#32)
  | .setAmbientPressure => (0xFFFFFFFF#32, 0x1000E000#32)
  | .performForcedRecalibration => (0xFFFFFFFF#32, 0x1000362F#32)
  | .setAutomaticCalibration => (0xFFFFFFFF#32, 0x10002416#32)
  | .getAutomaticCalibration => (0xFFFFFFFF#32, 0x10002313#32)
  | .startLowPowerMeasurement => (0xFFFFFFFF#32, 0x100021AC#32)
  | .getDataReadyStatus => (0xFFFFFFFF#32, 0x1000E4B8#32)
  | .persistSettings => (0xFFFFFFFF#32, 0x10003615#32)
  | .getSerialNumber => (0xFFFFFFFF#32, 0x10003682#32)
  | .performSelfTest => (0xFFFFFFFF#32, 0x10003639#32)
  | .performFactoryReset => (0xFFFFFFFF#32, 0x10003632#32)
  | .reinit => (0xFFFFFFFF#32, 0x10003646#32)
  | .measureSingleShot => (0xFFFFFFFF#32, 0x1000219D#32)
  | .measureSingleShotRhtOnly => (0xFFFFFFFF#32, 0x10002196#32)
  | .powerDown => (0xFFFFFFFF#32, 0x100036E0#32)
  | .wakeUp => (0xFFFFFFFF#32, 0x100036F6#32)

/-- The encoding has the row's fixed bits. -/
def Statement (i : Instr) : Prop := encode i &&& (row i).1 = (row i).2

theorem packReq_and (op n : BitVec 4) (w : Word) (mo mn : BitVec 4) (mr : BitVec 8) (mw : Word) :
    packReq op n w &&& (mo ++ mn ++ mr ++ mw) = (op &&& mo) ++ (n &&& mn) ++ 0x00#8 ++ (w &&& mw) := by
  apply BitVec.eq_of_getLsbD_eq
  intro i hi
  simp only [packReq, BitVec.getLsbD_and, BitVec.getLsbD_append, Nat.sub_sub, BitVec.getLsbD_zero]
  split_ifs <;> simp

theorem crc8 (w : Word) : Statement (.crc8 w) := by
  have h := packReq_and 0x0#4 0x0#4 w 0xF#4 0xF#4 0xFF#8 0x0000#16
  rw [BitVec.and_zero] at h
  exact h
theorem encCmd (w : Word) : Statement (.encCmd w) := by
  have h := packReq_and 0x1#4 0x0#4 w 0xF#4 0xF#4 0xFF#8 0x0000#16
  rw [BitVec.and_zero] at h
  exact h
theorem encWord (w : Word) : Statement (.encWord w) := by
  have h := packReq_and 0x2#4 0x0#4 w 0xF#4 0xF#4 0xFF#8 0x0000#16
  rw [BitVec.and_zero] at h
  exact h
theorem encArgs (n : BitVec 4) (w : Word) : Statement (.encArgs n w) := by
  have h := packReq_and 0x3#4 n w 0xF#4 0x0#4 0xFF#8 0x0000#16
  rw [BitVec.and_zero, BitVec.and_zero] at h
  exact h
theorem decFrame (n : BitVec 4) : Statement (.decFrame n) := by
  have h := packReq_and 0x4#4 n 0x0000#16 0xF#4 0x0#4 0xFF#8 0xFFFF#16
  rw [BitVec.and_zero] at h
  exact h
theorem startPeriodicMeasurement : Statement .startPeriodicMeasurement := by unfold Statement; decide
theorem readMeasurement : Statement .readMeasurement := by unfold Statement; decide
theorem stopPeriodicMeasurement : Statement .stopPeriodicMeasurement := by unfold Statement; decide
theorem setTemperatureOffset : Statement .setTemperatureOffset := by unfold Statement; decide
theorem getTemperatureOffset : Statement .getTemperatureOffset := by unfold Statement; decide
theorem setSensorAltitude : Statement .setSensorAltitude := by unfold Statement; decide
theorem getSensorAltitude : Statement .getSensorAltitude := by unfold Statement; decide
theorem setAmbientPressure : Statement .setAmbientPressure := by unfold Statement; decide
theorem performForcedRecalibration : Statement .performForcedRecalibration := by unfold Statement; decide
theorem setAutomaticCalibration : Statement .setAutomaticCalibration := by unfold Statement; decide
theorem getAutomaticCalibration : Statement .getAutomaticCalibration := by unfold Statement; decide
theorem startLowPowerMeasurement : Statement .startLowPowerMeasurement := by unfold Statement; decide
theorem getDataReadyStatus : Statement .getDataReadyStatus := by unfold Statement; decide
theorem persistSettings : Statement .persistSettings := by unfold Statement; decide
theorem getSerialNumber : Statement .getSerialNumber := by unfold Statement; decide
theorem performSelfTest : Statement .performSelfTest := by unfold Statement; decide
theorem performFactoryReset : Statement .performFactoryReset := by unfold Statement; decide
theorem reinit : Statement .reinit := by unfold Statement; decide
theorem measureSingleShot : Statement .measureSingleShot := by unfold Statement; decide
theorem measureSingleShotRhtOnly : Statement .measureSingleShotRhtOnly := by unfold Statement; decide
theorem powerDown : Statement .powerDown := by unfold Statement; decide
theorem wakeUp : Statement .wakeUp := by unfold Statement; decide

end Sys2Proof.Laws.TableRow
end

