-- ==== Sys2Proof/Tests/Slice0.lean ====
section
/-! SUPPORT. Tests/Slice0.lean: tests with the values of 95_test_vectors.md (named in each docstring), and for every
obligation with hypotheses a witness that meets them. -/

namespace Sys2Proof.Tests

open Sys2Proof Sys2Proof.Machine

/-- STATUS, the valid bytes of OUT and the valid words of an outcome; nothing where the step stops. -/
def results : Host.Outcome State Fault Refusal → Option (BitVec 4 × List Byte × List Word)
  | .next t => some (t.status, t.out.take t.outLen, t.words.take t.wcount)
  | .fault _ => none
  | .refused _ => none

/-- The fault of an outcome. -/
def faultOf : Host.Outcome State Fault Refusal → Option Fault
  | .next _ => none
  | .fault f => some f
  | .refused _ => none

/-- The reset state with a frame in IN. -/
def withFrame (bytes : List Byte) : State :=
  { State.reset with inBuf := bytes ++ State.reset.inBuf.drop bytes.length, inLen := bytes.length }

/-- The reset state with `ARG[0]` written. -/
def withArg (a : Word) : State := { State.reset with arg := [some a] }

/-- A state whose next host action writes REQ. -/
def issuing (s : State) (r : Req) : State := { s with host := [.issue r] }

/-! ### Well-formedness -/

theorem test_wf_refuses_a_listed_code : (Instr.encCmd 0x21B1#16).wf = false := by decide
theorem test_wf_refuses_every_listed_code : Command.all.all (fun c => (Instr.encCmd c.code).wf) = false ∧
    (Command.all.filter fun c => (Instr.encCmd c.code).wf) = [] := by decide
theorem test_wf_accepts_an_unlisted_code : (Instr.encCmd 0x21B2#16).wf = true := by decide
theorem test_wf_accepts_every_command : (Command.all.filter fun c => !c.instr.wf) = [] := by decide

/-! ### Decoding: words written out from R45 and R46, and the rows of spec/opcode_table.json -/

/-- OP 0000, N 0000, RSV 00000000, W 0xBEEF (V10). -/
theorem test_decode_crc8 :
    (decodeReq 0b00000000000000001011111011101111#32).toOption = some (.crc8 0xBEEF#16) := by decide
/-- OP 0001, N 0000, RSV 00000000, W 0xEC05 (R83). -/
theorem test_decode_command :
    (decodeReq 0b00010000000000001110110000000101#32).toOption = some .readMeasurement := by decide
/-- OP 0001, W 0x1234, no command (V6). -/
theorem test_decode_encCmd :
    (decodeReq 0b00010000000000000001001000110100#32).toOption = some (.encCmd 0x1234#16) := by decide
/-- OP 0010, W 0x1234 (R61). -/
theorem test_decode_encWord :
    (decodeReq 0b00100000000000000001001000110100#32).toOption = some (.encWord 0x1234#16) := by decide
/-- OP 0011, N 0001, W 0x2427 (R61). -/
theorem test_decode_encArgs :
    (decodeReq 0b00110001000000000010010000100111#32).toOption = some (.encArgs 0x1#4 0x2427#16) := by decide
/-- OP 0100, N 0011, W 0 (R61). -/
theorem test_decode_decFrame :
    (decodeReq 0b01000011000000000000000000000000#32).toOption = some (.decFrame 0x3#4) := by decide
/-- A listed code in the W field of another operation is data (V7). -/
theorem test_decode_code_as_data :
    (decodeReq 0x200021B1#32).toOption = some (.encWord 0x21B1#16) := by decide
/-- The 22 CMD16 rows, by their words (R52). -/
theorem test_decode_command_rows :
    commandCodes.map (fun w => decodeTableWord 16 w.toNat) = Command.all.map (fun c => some c.instr) := by decide
/-- The REQ32 rows, by their match words, and a 16-bit word that is no row's. -/
theorem test_decode_request_rows :
    decodeTableWord 32 0x00000000 = some (.crc8 0x0000#16) ∧
    decodeTableWord 32 0x10000000 = some (.encCmd 0x0000#16) ∧
    decodeTableWord 32 0x20000000 = some (.encWord 0x0000#16) ∧
    decodeTableWord 32 0x30000000 = some (.encArgs 0x0#4 0x0000#16) ∧
    decodeTableWord 32 0x40000000 = some (.decFrame 0x0#4) ∧ decodeTableWord 16 0x1234 = none := by decide
/-- Every check of R57 that is the decoder's, by name (V6, V7, V9, V10, V11). -/
theorem test_decode_rejects :
    decodeReq 0x50000000#32 = .error .reservedOp ∧ decodeReq 0xF000BEEF#32 = .error .reservedOp ∧
    decodeReq 0x00FF1234#32 = .error .reservedField ∧ decodeReq 0x20800000#32 = .error .reservedField ∧
    decodeReq 0x110021B1#32 = .error .wordCount ∧ decodeReq 0x21000000#32 = .error .wordCount ∧
    decodeReq 0x41000001#32 = .error .wordField ∧ decodeReq 0x41010000#32 = .error .reservedField :=
  ⟨rfl, rfl, rfl, rfl, rfl, rfl, rfl, rfl⟩
/-- The encoder writes the REQ of R61 and R82. -/
theorem test_encode :
    encode (.encArgs 0x1#4 0x2427#16) = 0x31002427#32 ∧ encode (.decFrame 0x3#4) = 0x43000000#32 ∧
    encode .startPeriodicMeasurement = 0x100021B1#32 := by decide

/-! ### The CRC generator -/

set_option maxRecDepth 20000 in
/-- V2: the register after each byte of 0xBEEF. -/
theorem test_crc_steps : crcStep 0xFF#8 0xBE#8 = 0x0C#8 ∧ crcStep 0x0C#8 0xEF#8 = 0x92#8 := by decide
set_option maxRecDepth 20000 in
/-- V4. -/
theorem test_crc_words :
    [0x0000#16, 0x0001#16, 0x0100#16, 0x8000#16, 0xFFFF#16, 0xA5A5#16, 0x03E8#16].map crc8 =
      [0x81#8, 0xB0#8, 0x75#8, 0xA2#8, 0xAC#8, 0x00#8, 0xD4#8] := by decide
set_option maxRecDepth 20000 in
/-- V3: the catalogue's check value over "123456789". -/
theorem test_crc_catalogue :
    [0x31#8, 0x32#8, 0x33#8, 0x34#8, 0x35#8, 0x36#8, 0x37#8, 0x38#8, 0x39#8].foldl crcStep 0xFF#8 = 0xF7#8 := by
  decide

/-! ### One step of each instruction -/

set_option maxRecDepth 20000 in
/-- V10. -/
theorem test_step_crc8 : results (step (issuing State.reset 0x0000BEEF#32)) = some (0x0#4, [0x92#8], []) := by decide
/-- V10, R112. -/
theorem test_step_crc8_rsv : results (step (issuing State.reset 0x00FF1234#32)) = some (0x3#4, [], []) := by decide
/-- V6: every command. -/
theorem test_step_commands :
    commandCodes.map (fun w => results (step (State.reset.withFetchWord 16 w.toNat))) =
      [[0x21#8, 0xB1#8], [0xEC#8, 0x05#8], [0x3F#8, 0x86#8], [0x24#8, 0x1D#8], [0x23#8, 0x18#8],
       [0x24#8, 0x27#8], [0x23#8, 0x22#8], [0xE0#8, 0x00#8], [0x36#8, 0x2F#8], [0x24#8, 0x16#8],
       [0x23#8, 0x13#8], [0x21#8, 0xAC#8], [0xE4#8, 0xB8#8], [0x36#8, 0x15#8], [0x36#8, 0x82#8],
       [0x36#8, 0x39#8], [0x36#8, 0x32#8], [0x36#8, 0x46#8], [0x21#8, 0x9D#8], [0x21#8, 0x96#8],
       [0x36#8, 0xE0#8], [0x36#8, 0xF6#8]].map (fun b => some (0x0#4, b, [])) := by decide
/-- V6: the swapped bytes of a code are no command. -/
theorem test_step_encCmd_unknown :
    results (step (issuing State.reset 0x1000B121#32)) = some (0x4#4, [], []) := by decide
/-- V6: RSV is checked before the code. -/
theorem test_step_encCmd_priority :
    results (step (issuing State.reset 0x10011234#32)) = some (0x3#4, [], []) := by decide
set_option maxRecDepth 20000 in
/-- V7. -/
theorem test_step_encWord :
    results (step (State.reset.withFetchWord 32 0x200021B1)) = some (0x0#4, [0x21#8, 0xB1#8, 0x27#8], []) := by decide
/-- V7. -/
theorem test_step_encWord_n : results (step (issuing State.reset 0x21000000#32)) = some (0x3#4, [], []) := by decide
set_option maxRecDepth 20000 in
/-- V8, second row. -/
theorem test_step_encArgs :
    results (step (issuing (withArg 0x03E8#16) 0x31002427#32)) =
      some (0x0#4, [0x24#8, 0x27#8, 0x03#8, 0xE8#8, 0xD4#8], []) := by decide
set_option maxRecDepth 20000 in
/-- V8, sixth row: two arguments with MAX_ARG_WORDS = 2. -/
theorem test_step_encArgs_two :
    results (step (issuing { State.resetWith { maxRespWords := 3, maxArgWords := 2 } with
      arg := [some 0x03E8#16, some 0x0BB8#16] } 0x32002427#32)) =
      some (0x0#4, [0x24#8, 0x27#8, 0x03#8, 0xE8#8, 0xD4#8, 0x0B#8, 0xB8#8, 0x9D#8], []) := by decide
/-- V8, the last row; I3. -/
theorem test_step_encArgs_errors :
    results (step (issuing (withArg 0x03E8#16) 0x32001234#32)) = some (0x3#4, [], []) ∧
    results (step (issuing (withArg 0x03E8#16) 0x31001234#32)) = some (0x4#4, [], []) ∧
    faultOf (step (issuing State.reset 0x31002427#32)) = some (.argNotWritten 0) := by decide

/-- The frame of E8. -/
def serialFrame : List Byte := [0x12#8, 0x34#8, 0x37#8, 0x56#8, 0x78#8, 0x7D#8, 0x9A#8, 0xBC#8, 0xE0#8]

set_option maxRecDepth 20000 in
/-- V9, E8. -/
theorem test_step_decFrame :
    results (step (issuing (withFrame serialFrame) 0x43000000#32)) =
      some (0x0#4, [], [0x1234#16, 0x5678#16, 0x9ABC#16]) := by decide
set_option maxRecDepth 20000 in
/-- V9: the last group is bad; then the length and RSV, which come first. -/
theorem test_step_decFrame_errors :
    results (step (issuing (withFrame (serialFrame.set 8 0xE1#8)) 0x43000000#32)) = some (0x1#4, [], []) ∧
    results (step (issuing (withFrame (serialFrame.take 8)) 0x43000000#32)) = some (0x2#4, [], []) ∧
    results (step (issuing (withFrame serialFrame) 0x44000000#32)) = some (0x3#4, [], []) ∧
    results (step (issuing (withFrame [0xFF#8, 0xFF#8, 0xFF#8]) 0x41000000#32)) = some (0x1#4, [], []) := by decide

set_option maxRecDepth 20000 in
/-- V12: a request clears what an earlier one left, and an error clears all of OUT. -/
theorem test_results_are_rewritten :
    (match exec (.crc8 0xBEEF#16) { State.reset with words := [0x1234#16, 0x5678#16, 0x9ABC#16], wcount := 3 } with
     | .next t => some (t.out, t.outLen, t.words, t.wcount)
     | _ => none) = some ([0x92#8, 0x00#8, 0x00#8, 0x00#8, 0x00#8], 1, [0x0000#16, 0x0000#16, 0x0000#16], 0) ∧
    ({ State.reset with out := [0x92#8, 0x00#8, 0x00#8, 0x00#8, 0x00#8], outLen := 1 }.raise .illegalOperation).out =
      [0x00#8, 0x00#8, 0x00#8, 0x00#8, 0x00#8] := by decide

/-- V13. -/
theorem test_response_fields :
    [0x0000#16, 0x8000#16, 0xF800#16, 0x0001#16, 0x0400#16, 0x07FF#16, 0x0800#16, 0x8006#16].map dataReady =
      [false, false, false, true, true, true, false, true] ∧
    [0x0000#16, 0x0100#16, 0x00FF#16, 0xFFFF#16].map selfTestFailed = [false, true, false, true] ∧
    serial 0x1234#16 0x5678#16 0x9ABC#16 = 0x123456789ABC#48 := by decide

/-- A loaded frame sets IN and IN_LEN (P4, line 5). -/
theorem test_load_frame :
    (match step { State.reset with host := [.loadFrame [0xBE#8, 0xEF#8, 0x92#8]] } with
     | .next t => some (t.inBuf.take 3, t.inLen, t.inBuf.length)
     | _ => none) = some ([0xBE#8, 0xEF#8, 0x92#8], 3, 9) := by decide

/-- R60: the pseudo-instructions. -/
theorem test_assembler :
    (AsmLine.read (.name .getSerialNumber) 0x3#4 ⟨serialFrame.toArray, rfl⟩).actions =
      [.issue 0x10003682#32, .send, .recv serialFrame, .issue 0x43000000#32] ∧
    AsmLine.decWord.actions = [.issue 0x41000000#32] := by decide

/-! ### Witnesses: the hypotheses of each obligation can be met -/

/-- The first and the last byte of a group. -/
theorem test_witness_CrcAlgebraicLaws :
    (0 < 3 ∧ 0xBF#8 ≠ (wordGroup 0xBEEF#16).getD 0 0x00#8) ∧
    (2 < 3 ∧ 0x93#8 ≠ (wordGroup 0xBEEF#16).getD 2 0x00#8) := by
  set_option maxRecDepth 20000 in decide
/-- R65's two clauses; RSV and N at their smallest nonzero values. -/
theorem test_witness_Crc8Request :
    (opOf 0x00010000#32 = 0 ∧ rsvOf 0x00010000#32 ≠ 0) ∧ (opOf 0x01000000#32 = 0 ∧ nOf 0x01000000#32 ≠ 0) ∧
    (opOf 0x0000FFFF#32 = 0 ∧ rsvOf 0x0000FFFF#32 = 0 ∧ nOf 0x0000FFFF#32 = 0) := by decide
theorem test_witness_EncCmdRequest :
    (opOf 0x100121B1#32 = 1 ∧ rsvOf 0x100121B1#32 ≠ 0) ∧ (opOf 0x110021B1#32 = 1 ∧ nOf 0x110021B1#32 ≠ 0) ∧
    (opOf 0x100021B2#32 = 1 ∧ rsvOf 0x100021B2#32 = 0 ∧ nOf 0x100021B2#32 = 0 ∧
      isCommandCode (wOf 0x100021B2#32) = false) ∧
    (opOf 0x100021B1#32 = 1 ∧ rsvOf 0x100021B1#32 = 0 ∧ nOf 0x100021B1#32 = 0 ∧
      isCommandCode (wOf 0x100021B1#32) = true) := by decide
theorem test_witness_EncWordRequest :
    (opOf 0x20800000#32 = 2 ∧ rsvOf 0x20800000#32 ≠ 0) ∧ (opOf 0x21000000#32 = 2 ∧ nOf 0x21000000#32 ≠ 0) ∧
    (opOf 0x2000FFFF#32 = 2 ∧ rsvOf 0x2000FFFF#32 = 0 ∧ nOf 0x2000FFFF#32 = 0) := by decide
/-- N at MAX_ARG_WORDS and just above it; an unlisted code; no argument, one written, one unwritten; the example. -/
theorem test_witness_EncArgsRequest :
    (opOf 0x30010000#32 = 3 ∧ rsvOf 0x30010000#32 ≠ 0) ∧
    (opOf 0x32002427#32 = 3 ∧ State.reset.params.maxArgWords < nOf 0x32002427#32) ∧
    (opOf 0x31001234#32 = 3 ∧ rsvOf 0x31001234#32 = 0 ∧ nOf 0x31001234#32 ≤ State.reset.params.maxArgWords ∧
      isCommandCode (wOf 0x31001234#32) = false) ∧
    (opOf 0x30002427#32 = 3 ∧ rsvOf 0x30002427#32 = 0 ∧ nOf 0x30002427#32 ≤ State.reset.params.maxArgWords ∧
      isCommandCode (wOf 0x30002427#32) = true ∧ ([] : List Word).length = nOf 0x30002427#32) ∧
    (opOf 0x31002427#32 = 3 ∧ rsvOf 0x31002427#32 = 0 ∧ nOf 0x31002427#32 ≤ State.reset.params.maxArgWords ∧
      isCommandCode (wOf 0x31002427#32) = true ∧ [0x03E8#16].length = nOf 0x31002427#32 ∧
      (withArg 0x03E8#16).argWord 0 = some 0x03E8#16 ∧ 1 ≤ (withArg 0x03E8#16).params.maxArgWords ∧
      0 < nOf 0x31002427#32 ∧ State.reset.argWord 0 = none) := by decide
theorem test_witness_EncArgsRequest_args :
    ∀ (j : Nat) (h : j < [0x03E8#16].length), (withArg 0x03E8#16).argWord j = some [0x03E8#16][j] := by decide
set_option maxRecDepth 20000 in
/-- N at MAX_RESP_WORDS and just above it; a wrong length; a bad last group; N = 0; the example. -/
theorem test_witness_DecFrameRequest :
    (opOf 0x41010000#32 = 4 ∧ rsvOf 0x41010000#32 ≠ 0) ∧ (opOf 0x41000001#32 = 4 ∧ wOf 0x41000001#32 ≠ 0x0000#16) ∧
    (opOf 0x44000000#32 = 4 ∧ State.reset.params.maxRespWords < nOf 0x44000000#32) ∧
    (opOf 0x43000000#32 = 4 ∧ rsvOf 0x43000000#32 = 0 ∧ wOf 0x43000000#32 = 0x0000#16 ∧
      nOf 0x43000000#32 ≤ State.reset.params.maxRespWords ∧ State.reset.inLen ≠ 3 * nOf 0x43000000#32 ∧
      (withFrame serialFrame).inLen = 3 * nOf 0x43000000#32 ∧
      (withFrame serialFrame).inBuf = serialFrame ∧
      groupAt (withFrame (serialFrame.set 8 0xE1#8)).inBuf 2 = none ∧
      (withFrame (serialFrame.set 8 0xE1#8)).inLen = 9 ∧
      [0x1234#16, 0x5678#16, 0x9ABC#16].length = nOf 0x43000000#32) ∧
    (nOf 0x40000000#32 = 0 ∧ State.reset.inLen = 0) := by decide
set_option maxRecDepth 20000 in
theorem test_witness_DecFrameRequest_groups :
    ∀ (i : Nat) (h : i < [0x1234#16, 0x5678#16, 0x9ABC#16].length),
      groupAt (withFrame serialFrame).inBuf i = some [0x1234#16, 0x5678#16, 0x9ABC#16][i] := by decide
/-- A value one bit away from a code, with N at MAX_ARG_WORDS; and a code. -/
theorem test_witness_CommandCodeSpace :
    (0x21B2#16 ∉ commandCodes ∧ (0x1#4).toNat ≤ State.reset.params.maxArgWords) ∧ 0x36F6#16 ∈ commandCodes := by
  decide
theorem test_witness_EncCmdCompletes :
    isCommandCode 0x36F6#16 = true ∧ isCommandCode 0x36F7#16 = false := by decide
/-- N = 0 on the reset state; N = MAX_ARG_WORDS with the argument written is `test_witness_EncArgsRequest_args`. -/
theorem test_witness_EncArgsCompletes :
    ((0x1#4).toNat ≤ (withArg 0x03E8#16).params.maxArgWords ∧ isCommandCode 0x2427#16 = true ∧
      [0x03E8#16].length = (0x1#4).toNat) ∧
    ((0x0#4).toNat ≤ State.reset.params.maxArgWords ∧ ([] : List Word).length = (0x0#4).toNat) := by decide
set_option maxRecDepth 20000 in
/-- Each clause, N at MAX_RESP_WORDS or just above; the groups are those of `test_witness_DecFrameRequest_groups`. -/
theorem test_witness_DecFrameCompletes :
    State.reset.params.maxRespWords < (0x4#4).toNat ∧
    ((0x3#4).toNat ≤ State.reset.params.maxRespWords ∧ State.reset.inLen ≠ 3 * (0x3#4).toNat) ∧
    ((0x3#4).toNat ≤ (withFrame serialFrame).params.maxRespWords ∧
      (withFrame serialFrame).inLen = 3 * (0x3#4).toNat ∧
      [0x1234#16, 0x5678#16, 0x9ABC#16].length = (0x3#4).toNat) ∧
    (2 < (0x3#4).toNat ∧ groupAt (withFrame (serialFrame.set 8 0xE1#8)).inBuf 2 = none) := by decide
theorem test_witness_InputRegistersAreNeverWritten :
    (∃ t, exec .wakeUp State.reset = .next t) ∧
    (∃ t, step { State.reset with host := .issue 0x100036F6#32 :: [] } = .next t) := ⟨⟨_, rfl⟩, ⟨_, rfl⟩⟩
/-- Results that fill OUT and WORDS to their capacities; two states that differ in their results. -/
theorem test_witness_EveryRequestRewritesEveryResult :
    ((List.replicate 5 0xAA#8).length ≤ State.reset.params.outCap ∧
      [0x1234#16, 0x5678#16, 0x9ABC#16].length ≤ State.reset.params.maxRespWords) ∧
    (∃ t, step { State.reset with host := .issue 0x100036F6#32 :: [] } = .next t) ∧
    (∃ s2 : State, s2.params = State.reset.params ∧ s2.arg = State.reset.arg ∧ s2.inBuf = State.reset.inBuf ∧
      s2.inLen = State.reset.inLen ∧ s2.status ≠ State.reset.status) :=
  ⟨by decide, ⟨_, rfl⟩, ⟨{ State.reset with status := 0x4#4 }, rfl, rfl, rfl, rfl, by decide⟩⟩
set_option maxRecDepth 20000 in
/-- One request for each status, at the boundary of each clause. -/
theorem test_witness_RequestsEndWithTheFirstError :
    IllegalReq State.reset.params 0x50000000#32 ∧ IllegalReq State.reset.params 0x32001234#32 ∧
    (¬ IllegalReq State.reset.params 0x31001234#32 ∧ UnknownReq 0x31001234#32) ∧
    (¬ IllegalReq State.reset.params 0x43000000#32 ∧ opOf 0x43000000#32 = 4 ∧
      (withFrame (serialFrame.take 8)).inLen ≠ 3 * nOf 0x43000000#32) ∧
    ((withFrame (serialFrame.set 8 0xE1#8)).inLen = 3 * nOf 0x43000000#32 ∧ 2 < nOf 0x43000000#32 ∧
      crc8 (be16Join ((withFrame (serialFrame.set 8 0xE1#8)).inByte 6)
        ((withFrame (serialFrame.set 8 0xE1#8)).inByte 7)) ≠ (withFrame (serialFrame.set 8 0xE1#8)).inByte 8) := by
  decide
theorem test_witness_ReissuedRequestGivesTheSameState :
    (∃ t, step { State.reset with host := .issue 0x100036F6#32 :: [] } = .next t) ∧
    (∃ t, step { { State.reset with wcount := 1 } with host := .interpret .dataReady :: [] } = .next t) :=
  ⟨⟨_, rfl⟩, ⟨_, rfl⟩⟩
/-- Contents that differ at index N = 1 only, for an ENC_CMD_ARGS request; and anywhere, for another request. -/
theorem test_witness_ArgIsReadOnlyByEncArgs :
    (opOf 0x31002427#32 = 3 ∧ nOf 0x31002427#32 = 1 ∧
      [some 0x03E8#16, some 0x0000#16].getD 0 none = (withArg 0x03E8#16).arg.getD 0 none) ∧
    (∃ t, step { withArg 0x03E8#16 with host := .issue 0x31002427#32 :: [] } = .next t) ∧
    opOf 0x100036F6#32 ≠ 3 := ⟨by decide, ⟨_, rfl⟩, by decide⟩
/-- Contents that differ at index IN_LEN = 3 only, for a DEC_FRAME request; and anywhere, for another request. -/
theorem test_witness_InIsReadOnlyByDecFrame :
    (∀ i, i < (withFrame [0xBE#8, 0xEF#8, 0x92#8]).inLen →
      [0xBE#8, 0xEF#8, 0x92#8, 0xFF#8].getD i 0x00#8 =
        (withFrame [0xBE#8, 0xEF#8, 0x92#8]).inBuf.getD i 0x00#8) ∧
    (results (step (issuing (withFrame [0xBE#8, 0xEF#8, 0x92#8]) 0x41000000#32))).isSome = true ∧
    opOf 0x100036F6#32 ≠ 4 := by
  set_option maxRecDepth 20000 in decide
/-- Every way a step can fault happens, each at its boundary. -/
theorem test_witness_StepFaultsExactlyWhen :
    faultOf (step { State.reset with host := [.writeArg 1 0x0000#16] }) = some .noSuchElement ∧
    faultOf (step { State.reset with host := [.writeArg 0 0x0000#16] }) = none ∧
    faultOf (step { State.reset with host := [.writeIn 9 0x00#8] }) = some .noSuchElement ∧
    faultOf (step { State.reset with host := [.writeIn 8 0x00#8] }) = none ∧
    faultOf (step { State.reset with host := [.writeInLen 10] }) = some .noSuchElement ∧
    faultOf (step { State.reset with host := [.writeInLen 9] }) = none ∧
    faultOf (step { State.reset with host := [.loadFrame (List.replicate 10 0x00#8)] }) = some .noSuchElement ∧
    faultOf (step { State.reset with host := [.recv (List.replicate 10 0x00#8)] }) = some .noSuchElement ∧
    faultOf (step { State.reset with host := [.recv (List.replicate 9 0x00#8)] }) = none ∧
    faultOf (step { State.reset with host := [.interpret .dataReady] }) = some .responseNotAvailable ∧
    faultOf (step (issuing State.reset 0x31002427#32)) = some (.argNotWritten 0) := by decide
theorem test_witness_NothingIsRefused : ∀ n w, Instr.decFrame 0x3#4 ≠ .encArgs n w := by intro n w h; cases h
set_option maxRecDepth 20000 in
/-- N at MAX_RESP_WORDS, with no byte after the frame. -/
theorem test_witness_WordGroupsDecodeToTheirWords :
    1 ≤ State.reset.params.maxRespWords ∧ [0x1234#16, 0x5678#16, 0x9ABC#16].length = (0x3#4).toNat ∧
    (0x3#4).toNat ≤ (withFrame serialFrame).params.maxRespWords ∧
    (withFrame serialFrame).inBuf = [0x1234#16, 0x5678#16, 0x9ABC#16].flatMap wordGroup ++ [] ∧
    (withFrame serialFrame).inLen = 3 * (0x3#4).toNat := by decide
set_option maxRecDepth 20000 in
/-- The last byte of a frame of MAX_RESP_WORDS groups. -/
theorem test_witness_SingleByteCorruptionIsDetected :
    8 < 3 * (0x3#4).toNat ∧
    0xE1#8 ≠ ([0x1234#16, 0x5678#16, 0x9ABC#16].flatMap wordGroup).getD 8 0x00#8 ∧
    (withFrame (serialFrame.set 8 0xE1#8)).inBuf =
      ([0x1234#16, 0x5678#16, 0x9ABC#16].flatMap wordGroup).set 8 0xE1#8 ++ [] ∧
    (withFrame (serialFrame.set 8 0xE1#8)).inLen = 3 * (0x3#4).toNat := by decide
theorem test_witness_ArgumentFrameLayout :
    (0x1#4).toNat ≤ (withArg 0x03E8#16).params.maxArgWords ∧ isCommandCode 0x2427#16 = true ∧
    (∃ t, exec (.encArgs 0x1#4 0x2427#16) (withArg 0x03E8#16) = .next t) := ⟨by decide, by decide, ⟨_, rfl⟩⟩
theorem test_witness_DecodeUndoesEncode :
    (Instr.encCmd 0x21B2#16).wf = true ∧ Instr.startPeriodicMeasurement.wf = true ∧
    (Instr.encArgs 0xF#4 0xFFFF#16).wf = true := by decide
theorem test_witness_EncodeUndoesDecode :
    decodeReq 0x3F00FFFF#32 = .ok (.encArgs 0xF#4 0xFFFF#16) ∧ decodeReq 0x100021B1#32 = .ok .startPeriodicMeasurement :=
  ⟨rfl, rfl⟩
theorem test_witness_StepRunsTheDecodedInstruction :
    decodeReq 0x100036F6#32 = .ok .wakeUp ∧ decodeReq 0x50000000#32 = .error .reservedOp ∧
    Instr.wakeUp.wf = true ∧ State.reset.host = [] := ⟨rfl, rfl, rfl, rfl⟩
theorem test_witness_EveryStepKeepsTheInvariant :
    (State.resetWith Params.default).Wf ∧ ∃ t, step State.reset = .next t := by
  refine ⟨⟨by decide, rfl, rfl, by decide, rfl, by decide, ?_, rfl, by decide, ?_, by decide, .inl rfl,
    fun _ => ⟨rfl, rfl⟩⟩, ⟨_, rfl⟩⟩
  · intro i _ _; simp [State.resetWith]
  · intro i _ _; simp [State.resetWith]
/-- The parameters at both ends of their range. -/
theorem test_witness_ResetMeetsTheInvariant :
    Params.wf { maxRespWords := 1, maxArgWords := 15 } ∧ Params.wf { maxRespWords := 15, maxArgWords := 1 } := by
  decide
theorem test_witness_DataReadyIsTheLowElevenBits :
    (∀ i, i ≤ 10 → (0xF800#16).getLsbD i = (0x0000#16).getLsbD i) ∧
    ({ State.reset with wcount := 1 }.status = 0x0#4 ∧ { State.reset with wcount := 1 }.wcount = 1) := by decide
theorem test_witness_SelfTestTestsTheFirstByte :
    ({ State.reset with wcount := 1 }.status = 0x0#4 ∧ { State.reset with wcount := 1 }.wcount = 1) ∧
    ¬ ({ State.reset with wcount := 1, status := 0x1#4 }.status = 0x0#4 ∧
      { State.reset with wcount := 1, status := 0x1#4 }.wcount = 1) ∧
    ¬ ({ State.reset with wcount := 2 }.status = 0x0#4 ∧ { State.reset with wcount := 2 }.wcount = 1) := by decide
theorem test_witness_SerialNumberIsThreeWords :
    { State.reset with wcount := 3 }.status = 0x0#4 ∧ { State.reset with wcount := 3 }.wcount = 3 := by decide
set_option maxRecDepth 20000 in
theorem test_witness_ResponsesReachTheHostUnchanged :
    (3 ≤ (withFrame serialFrame).params.maxRespWords ∧
      (withFrame serialFrame).inBuf = [0x1234#16, 0x5678#16, 0x9ABC#16].flatMap wordGroup ++ [] ∧
      (withFrame serialFrame).inLen = 9) ∧
    (1 ≤ (withFrame [0x80#8, 0x06#8, 0x04#8]).params.maxRespWords ∧
      (withFrame [0x80#8, 0x06#8, 0x04#8]).inBuf = wordGroup 0x8006#16 ++ List.replicate 6 0x00#8 ∧
      (withFrame [0x80#8, 0x06#8, 0x04#8]).inLen = 3) ∧
    ¬ ({ State.reset with wcount := 2 }.status = 0x0#4 ∧
      { State.reset with wcount := 2 }.wcount = ResponseField.serialNumber.wordCount) ∧
    StatusCode.checksumMismatch ≠ .ok := by decide
/-- The last element of each buffer and the largest length; a frame that fills IN. -/
theorem test_witness_HostWritesChangeTheirRegistersOnly :
    0 < State.reset.params.maxArgWords ∧ 8 < State.reset.params.inCap ∧ 9 ≤ State.reset.params.inCap ∧
    serialFrame.length ≤ State.reset.params.inCap ∧ State.reset.inBuf.length = State.reset.params.inCap := by decide
theorem test_reset_wf : State.reset.Wf := test_witness_EveryStepKeepsTheInvariant.1
set_option maxRecDepth 20000 in
theorem test_witness_InitSequenceKeepsTheHostObligations :
    State.reset.Wf ∧ 3 ≤ State.reset.params.maxRespWords ∧ (HostTrack.start .uninitialized).waitMs = 0 ∧
    (HostTrack.start .uninitialized).pending = none ∧
    serialFrame.length = 9 ∧ [0x00#8, 0x00#8, 0x81#8].length = 3 ∧
    serialFrame = [0x1234#16, 0x5678#16, 0x9ABC#16].flatMap wordGroup ∧
    [0x00#8, 0x00#8, 0x81#8] = wordGroup 0x0000#16 := ⟨test_reset_wf, by decide⟩
/-- A program that writes an argument and reads it (P3, lines 1 and 2). -/
theorem test_witness_KeptObligationsRunWithoutFault :
    State.Wf { State.reset with host := [.writeArg 0 0x03E8#16, .issue 0x31002427#32] } ∧
    (HostTrack.start .idle).Describes { State.reset with host := [.writeArg 0 0x03E8#16, .issue 0x31002427#32] } ∧
    (∃ u, (HostTrack.start .idle).run Params.default [.writeArg 0 0x03E8#16, .issue 0x31002427#32] = some u) ∧
    (∀ f, HostAction.interpret f ∉ [HostAction.writeArg 0 0x03E8#16, .issue 0x31002427#32]) := by
  refine ⟨?_, ⟨rfl, by simp [HostTrack.start]⟩, ?_, by simp⟩
  · obtain ⟨a, b, c, d, e, f, g, h, i, j, k, l, m⟩ := test_reset_wf
    exact ⟨a, b, c, d, e, f, g, h, i, j, k, l, m⟩
  · exact Option.isSome_iff_exists.mp (by rfl)
/-- Each way of breaking an obligation, from what a host knows after reset or after a sent read command. -/
theorem test_witness_BrokenObligationsAreRefused :
    (opOf 0x31002427#32 = 3 ∧ rsvOf 0x31002427#32 = 0 ∧ 0 < nOf 0x31002427#32 ∧
      0 ∉ (HostTrack.start .idle).argReady) ∧
    (opOf 0x41000000#32 = 4 ∧ rsvOf 0x41000000#32 = 0 ∧ wOf 0x41000000#32 = 0x0000#16 ∧ nOf 0x41000000#32 ≠ 0 ∧
      (HostTrack.start .idle).inLen ≠ 3 * nOf 0x41000000#32 ∧
      2 < 3 * nOf 0x41000000#32 ∧ 2 ∉ (HostTrack.start .idle).inReady) ∧
    ((HostTrack.start .idle).afterSend .performSelfTest .idle).pending ≠ none ∧
    ((HostTrack.start .idle).afterSend .performSelfTest .idle).waitMs ≠ 0 ∧
    (HostTrack.start .idle).encoded = none ∧ Command.after .reinit .asleep = none ∧
    { HostTrack.start .idle with gapMs := 1 }.gapMs ≠ 0 ∧
    ((HostTrack.start .idle).afterSend .performSelfTest .idle).pending = some .performSelfTest ∧
    3 * Command.respWords .performSelfTest < [0x00#8, 0x00#8, 0x81#8, 0x00#8].length ∧
    ((HostTrack.start .periodicMeasuring).afterSend .readMeasurement .periodicMeasuring).pending =
      some .readMeasurement ∧ Command.delayMs .readMeasurement = 0 ∧
    opOf 0x41000000#32 ≠ 1 ∧ opOf 0x41000000#32 ≠ 3 ∧ Command.after .readMeasurement .uninitialized = none := by decide
/-- R133, R135: a dec.frame after a read command was sent and before its response arrived breaks an obligation, and so
does one over a shorter IN_LEN; after the delivery it is kept. -/
theorem test_host_obligations :
    (HostTrack.start .idle).run Params.default
      [.issue 0x10003639#32, .send, .wait 10000, .loadFrame [0x00#8, 0x00#8, 0x81#8], .issue 0x41000000#32] = none ∧
    (HostTrack.start .idle).run Params.default
      [.issue 0x10003639#32, .send, .wait 9999, .recv [0x00#8, 0x00#8, 0x81#8], .issue 0x41000000#32] = none ∧
    (HostTrack.start .idle).run Params.default [.writeIn 2 0x81#8, .writeIn 1 0x00#8, .writeIn 0 0x00#8,
      .writeInLen 2, .issue 0x41000000#32] = none ∧
    ((HostTrack.start .idle).run Params.default [.writeIn 2 0x81#8, .writeIn 1 0x00#8, .writeIn 0 0x00#8,
      .writeInLen 3, .issue 0x41000000#32]).isSome = true ∧
    ((HostTrack.start .idle).run Params.default
      [.issue 0x10003639#32, .send, .wait 10000, .recv [0x00#8, 0x00#8, 0x81#8], .issue 0x41000000#32]).isSome
      = true := by decide
/-- R135: a second command may not be sent inside the write-then-read of a delay-0 read command. R129: after a reset of
the block ReadMeasurement may not be sent, but WakeUp may. -/
theorem test_host_obligations_read :
    (HostTrack.start .periodicMeasuring).run Params.default
      [.issue 0x1000EC05#32, .send, .issue 0x1000E4B8#32, .send] = none ∧
    (HostTrack.start .periodicMeasuring).run Params.default [.reset, .issue 0x1000EC05#32, .send] = none ∧
    ((HostTrack.start .periodicMeasuring).run Params.default [.reset, .issue 0x100036F6#32, .send]).isSome = true := by
  decide
theorem test_witness_InstancesShareNothing :
    ∃ m, stepInstance 1 [State.reset, { State.reset with host := [.issue 0x100036F6#32] }] = .next m ∧
      m ≠ [State.reset, { State.reset with host := [.issue 0x100036F6#32] }] := ⟨_, rfl, by decide⟩

end Sys2Proof.Tests
end

section
/-! Proofs, layer 1: the decoder over the fields of REQ as numbers, and the pure reference function by operation. -/

namespace Sys2Proof.Machine

/-- The encodings that no parameter makes legal (R57, R112): what the decoder rejects. -/
def MalformedReq (r : Req) : Prop :=
  5 ≤ opOf r ∨ rsvOf r ≠ 0 ∨ (opOf r ≤ 2 ∧ nOf r ≠ 0) ∨ (opOf r = 4 ∧ wOf r ≠ 0x0000#16)

/-- The chain of R62 with every field as a number. -/
theorem decodeReq_eq (r : Req) : decodeReq r =
    if opOf r = 0 then checkFields r false true (.crc8 (wOf r))
    else if opOf r = 1 then checkFields r false true (bareCommand (wOf r))
    else if opOf r = 2 then checkFields r false true (.encWord (wOf r))
    else if opOf r = 3 then checkFields r true true (.encArgs (reqN r) (wOf r))
    else if opOf r = 4 then checkFields r true false (.decFrame (reqN r))
    else .error .reservedOp := by
  simp [decodeReq, reqOp_eq_iff, reqW_eq_wOf]

theorem checkFields_ok {r : Req} {usesN usesW : Bool} (i : Instr) (hrsv : rsvOf r = 0)
    (hn : usesN = false → nOf r = 0) (hw : usesW = false → wOf r = 0x0000#16) :
    checkFields r usesN usesW i = .ok i := by
  have hn' : ¬ (usesN = false ∧ reqN r ≠ 0) := fun ⟨hu, h⟩ => h ((reqN_eq_zero_iff r).mpr (hn hu))
  have hw' : ¬ (usesW = false ∧ reqW r ≠ 0) := fun ⟨hu, h⟩ => h ((reqW_eq_wOf r).trans (hw hu))
  rw [checkFields, if_neg (not_not.mpr ((reqRsv_eq_zero_iff r).mpr hrsv)), if_neg hn', if_neg hw']

theorem checkFields_error {r : Req} {usesN usesW : Bool} (i : Instr)
    (h : rsvOf r ≠ 0 ∨ (usesN = false ∧ nOf r ≠ 0) ∨ (usesW = false ∧ wOf r ≠ 0x0000#16)) :
    ∃ e, checkFields r usesN usesW i = .error e := by
  unfold checkFields
  split_ifs with hrsv hn hw
  · exact ⟨_, rfl⟩
  · exact ⟨_, rfl⟩
  · exact ⟨_, rfl⟩
  · rw [Ne, not_not, reqRsv_eq_zero_iff] at hrsv
    rw [Ne, reqN_eq_zero_iff] at hn
    rw [reqW_eq_wOf] at hw
    rcases h with h | h | h
    · exact absurd hrsv h
    · exact absurd h hn
    · exact absurd h hw

theorem decodeReq_of_malformed {r : Req} (h : MalformedReq r) : ∃ e, decodeReq r = .error e := by
  rw [decodeReq_eq]
  unfold MalformedReq at h
  split_ifs with h0 h1 h2 h3 h4
  · exact checkFields_error _ (by simp; omega)
  · exact checkFields_error _ (by simp; omega)
  · exact checkFields_error _ (by simp; omega)
  · exact checkFields_error _ (by simp; omega)
  · refine checkFields_error _ ?_
    rcases h with h | h | h | h
    · omega
    · exact .inl h
    · omega
    · exact .inr (.inr ⟨rfl, h.2⟩)
  · exact ⟨_, rfl⟩

/-- The operations of a request that the decoder accepts, with the instruction of each (R46). -/
theorem decodeReq_of_not_malformed {r : Req} (h : ¬ MalformedReq r) :
    (opOf r = 0 ∧ decodeReq r = .ok (.crc8 (wOf r))) ∨
    (opOf r = 1 ∧ decodeReq r = .ok (bareCommand (wOf r))) ∨
    (opOf r = 2 ∧ decodeReq r = .ok (.encWord (wOf r))) ∨
    (opOf r = 3 ∧ decodeReq r = .ok (.encArgs (reqN r) (wOf r))) ∨
    (opOf r = 4 ∧ decodeReq r = .ok (.decFrame (reqN r))) := by
  simp only [MalformedReq, not_or, not_and, not_not, not_le] at h
  obtain ⟨hop, hrsv, hn, hw⟩ := h
  rw [decodeReq_eq]
  have : opOf r = 0 ∨ opOf r = 1 ∨ opOf r = 2 ∨ opOf r = 3 ∨ opOf r = 4 := by omega
  rcases this with h | h | h | h | h
  · exact .inl ⟨h, by simp [h, checkFields_ok _ hrsv (fun _ => hn (by omega))]⟩
  · exact .inr (.inl ⟨h, by simp [h, checkFields_ok _ hrsv (fun _ => hn (by omega))]⟩)
  · exact .inr (.inr (.inl ⟨h, by simp [h, checkFields_ok _ hrsv (fun _ => hn (by omega))]⟩))
  · exact .inr (.inr (.inr (.inl ⟨h, by simp [h, checkFields_ok _ hrsv]⟩)))
  · exact .inr (.inr (.inr (.inr ⟨h, by simp [h, checkFields_ok (usesN := true) _ hrsv nofun fun _ => hw h]⟩)))

section
variable {p : Params} {arg : List (Option Word)} {inBuf : List Byte} {inLen : Nat} {r : Req}

theorem reference_of_malformed (h : MalformedReq r) :
    reference p arg inBuf inLen r = .ok (.err .illegalOperation) := by
  refine if_pos ?_
  rcases h with h | h | h | h
  · exact .inl h
  · exact .inr (.inl h)
  · exact .inr (.inr (.inl h))
  · exact .inr (.inr (.inr (.inr (.inr h))))

theorem illegalReq_iff (h : ¬ MalformedReq r) : IllegalReq p r ↔
    (opOf r = 3 ∧ p.maxArgWords < nOf r) ∨ (opOf r = 4 ∧ p.maxRespWords < nOf r) := by
  unfold MalformedReq at h
  unfold IllegalReq
  tauto

theorem reference_crc8 (h : ¬ MalformedReq r) (hop : opOf r = 0) :
    reference p arg inBuf inLen r = .ok (.ok [crc8 (wOf r)] []) := by
  simp [reference, illegalReq_iff h, UnknownReq, hop]

theorem reference_encCmd (h : ¬ MalformedReq r) (hop : opOf r = 1) : reference p arg inBuf inLen r =
    if isCommandCode (wOf r) then .ok (.ok (be16Split (wOf r)) []) else .ok (.err .unknownCommand) := by
  cases hw : isCommandCode (wOf r) <;> simp [reference, illegalReq_iff h, UnknownReq, hop, hw]

theorem reference_encWord (h : ¬ MalformedReq r) (hop : opOf r = 2) :
    reference p arg inBuf inLen r = .ok (.ok (wordGroup (wOf r)) []) := by
  simp [reference, illegalReq_iff h, UnknownReq, hop]

/-- The pseudocode of ENC_CMD_ARGS over its operands (R75). -/
def encArgsResult (p : Params) (arg : List (Option Word)) (n : Nat) (w : Word) : Except Fault Result :=
  if p.maxArgWords < n then .ok (.err .illegalOperation)
  else if isCommandCode w = false then .ok (.err .unknownCommand)
  else
    match readArgs arg 0 n with
    | .error e => .error e
    | .ok args => .ok (.ok (be16Split w ++ args.flatMap wordGroup) [])

theorem reference_encArgs (h : ¬ MalformedReq r) (hop : opOf r = 3) :
    reference p arg inBuf inLen r = encArgsResult p arg (nOf r) (wOf r) := by
  cases hr : readArgs arg 0 (nOf r) <;>
    simp [reference, illegalReq_iff h, UnknownReq, hop, encArgsResult, hr]

/-- The pseudocode of DEC_FRAME over its operand (R76). -/
def decFrameResult (p : Params) (inBuf : List Byte) (inLen n : Nat) : Result :=
  if p.maxRespWords < n then .err .illegalOperation
  else if inLen ≠ 3 * n then .err .frameLengthError
  else
    match decodeFrame inBuf n with
    | none => .err .checksumMismatch
    | some ws => .ok [] ws

theorem reference_decFrame (h : ¬ MalformedReq r) (hop : opOf r = 4) :
    reference p arg inBuf inLen r = .ok (decFrameResult p inBuf inLen (nOf r)) := by
  simp only [reference, illegalReq_iff h, UnknownReq, hop, decFrameResult]
  by_cases hn : p.maxRespWords < nOf r
  · simp [hn]
  · by_cases hl : inLen = 3 * nOf r
    · cases hd : decodeFrame inBuf (nOf r) <;> simp [hn, hl]
    · simp [hn, hl]

end

end Sys2Proof.Machine
end

section
/-! Proofs, layer 2: the machine computes the reference function (R6, R10). -/

namespace Sys2Proof.Machine

/-- The outcome `o` of a request run in `s` is what the pure function says: its result lands in the result registers
and nothing else moves but the CRC register, or the run stops with its fault. -/
def State.Computes (s : State) (o : Host.Outcome State Fault Refusal) : Except Fault Result → Prop
  | .ok res => ∃ c, o = .next (State.writeResult { s with crc := c } res)
  | .error f => o = .fault f

/-- A command's own constructor sends the command's frame (R82 to R103). -/
theorem exec_instr (c : Command) (s : State) : exec c.instr s = s.sendCommand c := by
  cases c <;> rfl

/-- Both spellings of a bare command request mean the same (log entry 8). -/
theorem exec_bareCommand (w : Word) (s : State) : exec (bareCommand w) s = execEncCmd w s := by
  cases h : Command.ofCode? w with
  | none => simp [bareCommand, h, exec]
  | some c =>
    rw [show bareCommand w = c.instr by simp [bareCommand, h], exec_instr, State.sendCommand,
      Command.code_of_ofCode? h]
    simp [execEncCmd, isCommandCode, h]

theorem execEncCmd_computes (w : Word) (s : State) : s.Computes (execEncCmd w s)
    (if isCommandCode w then .ok (.ok (be16Split w) []) else .ok (.err .unknownCommand)) := by
  unfold execEncCmd
  split_ifs
  · exact ⟨s.crc, rfl⟩
  · exact ⟨s.crc, rfl⟩

theorem execEncArgs_computes (n : BitVec 4) (w : Word) (s : State) :
    s.Computes (execEncArgs n w s) (encArgsResult s.params s.arg n.toNat w) := by
  unfold encArgsResult
  split_ifs with hn hw
  · exact ⟨s.crc, if_pos hn⟩
  · exact ⟨s.crc, (if_neg hn).trans (if_pos hw)⟩
  · have h := execEncArgs_spec n w s (by omega) (by simpa using hw)
    cases hr : readArgs s.arg 0 n.toNat with
    | error e => simpa only [State.Computes, hr] using h
    | ok args => simpa only [State.Computes, hr] using h

theorem execDecFrame_computes (n : BitVec 4) (s : State) :
    s.Computes (execDecFrame n s) (.ok (decFrameResult s.params s.inBuf s.inLen n.toNat)) := by
  unfold decFrameResult
  split_ifs with hn hl
  · exact ⟨s.crc, if_pos hn⟩
  · exact ⟨s.crc, (if_neg hn).trans (if_pos hl)⟩
  · obtain ⟨c, hc⟩ := execDecFrame_spec n s (by omega) (by simpa using hl)
    refine ⟨c, hc.trans ?_⟩
    cases decodeFrame s.inBuf n.toNat <;> rfl

/-- The decoder and the meanings together compute the reference function. -/
theorem State.issueRequest_computes (s : State) (r : Req) :
    State.Computes { s with req := r } (s.issueRequest r) (reference s.params s.arg s.inBuf s.inLen r) := by
  by_cases hm : MalformedReq r
  · obtain ⟨e, he⟩ := decodeReq_of_malformed hm
    rw [reference_of_malformed hm]
    exact ⟨s.crc, by simp [State.issueRequest, he]⟩
  · have hexec : ∀ i, decodeReq r = .ok i → s.issueRequest r = exec i { s with req := r } := by
      intro i hi
      simp only [State.issueRequest, hi]
    rcases decodeReq_of_not_malformed hm with ⟨hop, hd⟩ | ⟨hop, hd⟩ | ⟨hop, hd⟩ | ⟨hop, hd⟩ | ⟨hop, hd⟩
    · rw [hexec _ hd, reference_crc8 hm hop]
      exact ⟨_, execCrc8_eq _ _⟩
    · rw [hexec _ hd, reference_encCmd hm hop, exec_bareCommand]
      exact execEncCmd_computes _ _
    · rw [hexec _ hd, reference_encWord hm hop]
      exact ⟨_, execEncWord_eq _ _⟩
    · rw [hexec _ hd, reference_encArgs hm hop, ← reqN_toNat]
      exact execEncArgs_computes (reqN r) (wOf r) { s with req := r }
    · rw [hexec _ hd, reference_decFrame hm hop, ← reqN_toNat]
      exact execDecFrame_computes (reqN r) { s with req := r }

theorem step_issue_computes (s : State) (r : Req) (rest : List HostAction) :
    State.Computes { s with host := rest, req := r } (step { s with host := .issue r :: rest })
      (reference s.params s.arg s.inBuf s.inLen r) :=
  State.issueRequest_computes { s with host := rest } r

/-- Settles O23: by operation, the decoder and the instruction's meaning compute the reference function. -/
theorem blockIsTheSourceFunctions : Obligations.BlockIsTheSourceFunctions := by
  intro s r
  have h := step_issue_computes s r
  cases href : reference s.params s.arg s.inBuf s.inLen r with
  | ok res => rw [href] at h; exact h
  | error f => rw [href] at h; exact h

end Sys2Proof.Machine
end

section
/-! Proofs, layer 3: the invariant of the block (R7, R15 to R21). -/

namespace Sys2Proof.Machine

theorem allFrom_replicate {α : Type} (n k : Nat) (z : α) : allFrom n z (List.replicate k z) := by
  intro i _ h
  simp

/-- "The rest" of a filled buffer is the filler (R21). -/
theorem allFrom_fillTo {α : Type} (n : Nat) (z : α) (l : List α) : allFrom l.length z (fillTo n z l) := by
  intro i hi h
  have hn : i < n := by simpa [fillTo_length] using h
  have htake : (l.take n).length ≤ i := by simp; omega
  simp [fillTo, List.getElem_append_right htake]

/-- A result that the result registers have room for, and that is bytes or words but not both (R17, R18). -/
def Result.Fits (p : Params) : Result → Prop
  | .ok bytes ws => bytes.length ≤ p.outCap ∧ ws.length ≤ p.maxRespWords ∧ (bytes = [] ∨ ws = [])
  | .err _ => True

theorem StatusCode.code_toNat_le (c : StatusCode) : c.code.toNat ≤ 4 := by
  cases c <;> decide

theorem State.Wf.writeResult {s : State} (h : s.Wf) {res : Result} (hres : res.Fits s.params) :
    (s.writeResult res).Wf := by
  cases res with
  | ok bytes ws =>
    obtain ⟨hbytes, hws, hone⟩ := hres
    exact { h with
      outSize := fillTo_length _ _ _
      outLen := hbytes
      outZero := allFrom_fillTo _ _ _
      wordsSize := fillTo_length _ _ _
      wcount := hws
      wordsZero := allFrom_fillTo _ _ _
      status := StatusCode.code_toNat_le .ok
      oneKind := by simpa using hone
      errorClears := fun hne => absurd rfl hne }
  | err c =>
    exact { h with
      outSize := fillTo_length _ _ _
      outLen := Nat.zero_le _
      outZero := allFrom_fillTo _ _ []
      wordsSize := fillTo_length _ _ _
      wcount := Nat.zero_le _
      wordsZero := allFrom_fillTo _ _ []
      status := StatusCode.code_toNat_le c
      oneKind := .inl rfl
      errorClears := fun _ => ⟨rfl, rfl⟩ }

theorem encArgsResult_fits {p : Params} {arg : List (Option Word)} {n : Nat} {w : Word} {res : Result}
    (h : encArgsResult p arg n w = .ok res) : res.Fits p := by
  unfold encArgsResult at h
  split_ifs at h with hn hw
  · cases h; trivial
  · cases h; trivial
  · cases hr : readArgs arg 0 n with
    | error e => simp [hr] at h
    | ok args =>
      obtain rfl : Result.ok (be16Split w ++ args.flatMap wordGroup) [] = res := by simpa [hr] using h
      have hlen : args.length = n := (readArgs_ok _ _ _ hr).1
      have hcap : 2 + 3 * n ≤ p.outCap := Params.args_le_outCap (Nat.not_lt.mp hn)
      exact ⟨by rw [List.length_append, wordGroups_length, hlen]; exact hcap, Nat.zero_le _, .inr rfl⟩

theorem decFrameResult_fits (p : Params) (inBuf : List Byte) (inLen n : Nat) :
    (decFrameResult p inBuf inLen n).Fits p := by
  unfold decFrameResult
  split_ifs with hn hl
  · trivial
  · trivial
  · rcases decodeFrame_cases inBuf n with ⟨_, _, _, hd⟩ | ⟨ws, hws, _, hd⟩
    · rw [hd]; trivial
    · rw [hd]; exact ⟨Nat.zero_le _, hws ▸ Nat.not_lt.mp hn, .inl rfl⟩

/-- Every result of the source's functions fits the result registers. -/
theorem reference_fits {p : Params} {arg : List (Option Word)} {inBuf : List Byte} {inLen : Nat} {r : Req}
    {res : Result} (h : reference p arg inBuf inLen r = .ok res) : res.Fits p := by
  have hcap := Params.three_le_outCap p
  by_cases hm : MalformedReq r
  · rw [reference_of_malformed hm] at h; cases h; trivial
  · rcases decodeReq_of_not_malformed hm with ⟨hop, _⟩ | ⟨hop, _⟩ | ⟨hop, _⟩ | ⟨hop, _⟩ | ⟨hop, _⟩
    · rw [reference_crc8 hm hop] at h; cases h
      exact ⟨by simp; omega, Nat.zero_le _, .inr rfl⟩
    · rw [reference_encCmd hm hop] at h
      split_ifs at h <;> cases h
      · exact ⟨by simp [be16Split]; omega, Nat.zero_le _, .inr rfl⟩
      · trivial
    · rw [reference_encWord hm hop] at h; cases h
      exact ⟨by simpa [wordGroup, be16Split] using hcap, Nat.zero_le _, .inr rfl⟩
    · rw [reference_encArgs hm hop] at h
      exact encArgsResult_fits h
    · rw [reference_decFrame hm hop] at h; cases h
      exact decFrameResult_fits _ _ _ _

variable {s t : State}

theorem State.resetWith_wf {p : Params} (hp : p.wf) : (State.resetWith p).Wf where
  params := hp
  argSize := List.length_replicate
  inSize := List.length_replicate
  inLen := Nat.zero_le _
  outSize := List.length_replicate
  outLen := Nat.zero_le _
  outZero := allFrom_replicate _ _ _
  wordsSize := List.length_replicate
  wcount := Nat.zero_le _
  wordsZero := allFrom_replicate _ _ _
  status := Nat.zero_le _
  oneKind := .inl rfl
  errorClears := fun hne => absurd rfl hne

theorem State.Wf.withHost (h : s.Wf) (rest : List HostAction) : State.Wf { s with host := rest } := { h with }

theorem State.Wf.hardReset (h : s.Wf) : s.hardReset.Wf := (State.resetWith_wf h.params).withHost s.host

theorem State.Wf.writeArg (h : s.Wf) {j : Nat} {a : Word} (ht : s.writeArg j a = .next t) : t.Wf := by
  unfold State.writeArg at ht
  split_ifs at ht
  cases ht
  exact { h with argSize := List.length_set.trans h.argSize }

theorem State.Wf.writeIn (h : s.Wf) {i : Nat} {b : Byte} (ht : s.writeIn i b = .next t) : t.Wf := by
  unfold State.writeIn at ht
  split_ifs at ht
  cases ht
  exact { h with inSize := List.length_set.trans h.inSize }

theorem State.Wf.writeInLen (h : s.Wf) {n : Nat} (ht : s.writeInLen n = .next t) : t.Wf := by
  unfold State.writeInLen at ht
  split_ifs at ht with hn
  cases ht
  exact { h with inLen := hn }

theorem State.Wf.loadFrame (h : s.Wf) {bytes : List Byte} (ht : s.loadFrame bytes = .next t) : t.Wf := by
  unfold State.loadFrame at ht
  split_ifs at ht with hn
  cases ht
  have hsize : (bytes ++ s.inBuf.drop bytes.length).length = s.params.inCap := by
    rw [List.length_append, List.length_drop, h.inSize]; omega
  exact { h with inSize := hsize, inLen := hn }

theorem State.useResponse_next {f : ResponseField} (ht : s.useResponse f = .next t) : t = s := by
  unfold State.useResponse at ht
  split at ht
  · cases ht; rfl
  · cases ht

/-- A request keeps the invariant, because it writes a result of the reference function. -/
theorem State.Wf.issueRequest (h : s.Wf) {r : Req} (ht : s.issueRequest r = .next t) : t.Wf := by
  have hc := s.issueRequest_computes r
  rw [ht] at hc
  cases href : reference s.params s.arg s.inBuf s.inLen r with
  | error f => rw [href] at hc; cases hc
  | ok res =>
    rw [href] at hc
    obtain ⟨c, hc⟩ := hc
    cases hc
    have hs : State.Wf { s with req := r, crc := c } := { h with }
    exact hs.writeResult (reference_fits href)

theorem State.Wf.hostAct (h : s.Wf) {a : HostAction} (ht : s.hostAct a = .next t) : t.Wf := by
  cases a with
  | writeArg j a => exact h.writeArg ht
  | writeIn i b => exact h.writeIn ht
  | writeInLen n => exact h.writeInLen ht
  | loadFrame bytes => exact h.loadFrame ht
  | recv bytes => exact h.loadFrame ht
  | issue r => exact h.issueRequest ht
  | send => cases ht; exact h
  | wait ms => cases ht; exact h
  | interpret f => exact State.useResponse_next ht ▸ h
  | reset => cases ht; exact h.hardReset

/-- Settles O38: by the host action that the step performs. -/
theorem everyStepKeepsTheInvariant : Obligations.EveryStepKeepsTheInvariant := by
  intro s t h ht
  unfold step at ht
  split at ht
  · cases ht; exact h
  · exact (h.withHost _).hostAct ht

/-- Settles O39: every register has its reset value (R27), and the default parameters are in range. -/
theorem resetMeetsTheInvariant : Obligations.ResetMeetsTheInvariant :=
  ⟨fun _ hp => State.resetWith_wf hp, State.resetWith_wf (by decide)⟩

end Sys2Proof.Machine
end

section
/-! Proofs, family 10_state: reset, the CRC register and the instances (R22, R27, R28). -/

namespace Sys2Proof.Machine

/-- Settles O1: reset fills each buffer to its capacity, and the reset action is a hardware reset. -/
theorem resetLeavesTheSpecsValues : Obligations.ResetLeavesTheSpecsValues :=
  ⟨fun _ => ⟨rfl, List.length_replicate, rfl, rfl, rfl, rfl, rfl, rfl, rfl⟩, rfl, fun _ _ => rfl⟩

/-- Settles O4: the register starts from `crcInit`, and there is no final XOR. -/
theorem crcRegisterStartsFreshForEveryWord : Obligations.CrcRegisterStartsFreshForEveryWord := by
  intro s w
  have hcrc : crc8 w = crcStep (crcStep crcInit (hiByte w)) (loByte w) := crcXorOut_xor _
  exact ⟨s.crcWord_crcByte w, hcrc ▸ s.crcWord_eq w⟩

/-- A list of blocks that goes on has either no block `k`, or the step of block `k` in its place. -/
theorem stepInstance_next {k : Nat} {l m : List State} (h : stepInstance k l = .next m) :
    (l[k]? = none ∧ m = l) ∨ ∃ s t, l[k]? = some s ∧ step s = .next t ∧ m = l.set k t := by
  unfold stepInstance at h
  split at h
  case h_1 hk => cases h; exact .inl ⟨hk, rfl⟩
  case h_2 s hk =>
    split at h
    case h_1 t ht => cases h; exact .inr ⟨s, t, hk, ht, rfl⟩
    case h_2 => cases h
    case h_3 => cases h

/-- Settles O49: the stepping block is replaced in the list, and no other. -/
theorem instancesShareNothing : Obligations.InstancesShareNothing := by
  intro k l m h
  rcases stepInstance_next h with ⟨hk, rfl⟩ | ⟨s, t, hk, ht, rfl⟩
  · exact ⟨rfl, fun _ _ => rfl, fun s hs => by simp [hk] at hs⟩
  · obtain ⟨hlt, _⟩ := List.getElem?_eq_some_iff.mp hk
    refine ⟨List.length_set, fun j hj => List.getElem?_set_ne hj.symm, fun s' hs' => ⟨t, ?_, ?_⟩⟩
    · obtain rfl : s = s' := by simpa [hk] using hs'
      exact ht
    · exact List.getElem?_set_self hlt

end Sys2Proof.Machine
end

section
/-! Proofs, family 10_state: what a request that completes leaves in the registers (R20, R21). -/

namespace Sys2Proof.Machine

/-- A request that answers a next state wrote the result that the reference function gives. -/
theorem step_issue_next {s t : State} {r : Req} {rest : List HostAction}
    (h : step { s with host := .issue r :: rest } = .next t) :
    ∃ c res, reference s.params s.arg s.inBuf s.inLen r = .ok res ∧
      t = State.writeResult { s with host := rest, req := r, crc := c } res := by
  have hc := step_issue_computes s r rest
  rw [h] at hc
  cases href : reference s.params s.arg s.inBuf s.inLen r with
  | error f => rw [href] at hc; cases hc
  | ok res =>
    rw [href] at hc
    obtain ⟨c, hc⟩ := hc
    cases hc
    exact ⟨c, res, rfl, rfl⟩

/-- Settles O20: an instruction moves the CRC register and writes a result, and neither touches an input register. -/
theorem inputRegistersAreNeverWritten : Obligations.InputRegistersAreNeverWritten := by
  constructor
  · intro i s t h
    rcases exec_cases i s with ⟨j, hj⟩ | ⟨c, res, hres⟩
    · rw [hj] at h; cases h
    · rw [hres] at h; cases h; simp
  · intro s t r rest h
    obtain ⟨c, res, _, rfl⟩ := step_issue_next h
    simp

/-- A filled buffer reads as its contents, and as the filler past them (R21). -/
theorem fillTo_getD {α : Type} {n : Nat} {z : α} {l : List α} (h : l.length ≤ n) (i : Nat) :
    (fillTo n z l).getD i z = l.getD i z := by
  rw [fillTo_of_le h]
  rcases Nat.lt_or_ge i l.length with hi | hi
  · rw [List.getD_append _ _ _ _ hi]
  · rw [List.getD_append_right _ _ _ _ hi, List.getD_eq_getElem?_getD,
      List.getElem?_getD_replicate_default_eq, List.getD_eq_default _ _ hi]

/-- The result registers after a result depend on the parameters and the result alone. -/
theorem State.writeResult_results {s s2 : State} (h : s2.params = s.params) (res : Result) :
    (s2.writeResult res).out = (s.writeResult res).out ∧
    (s2.writeResult res).outLen = (s.writeResult res).outLen ∧
    (s2.writeResult res).words = (s.writeResult res).words ∧
    (s2.writeResult res).wcount = (s.writeResult res).wcount ∧
    (s2.writeResult res).status = (s.writeResult res).status := by
  cases res <;> simp [h]

/-- Settles O21: a result fills both buffers, and a request's result is the reference function of its inputs. -/
theorem everyRequestRewritesEveryResult : Obligations.EveryRequestRewritesEveryResult := by
  refine ⟨fun s bytes ws hbytes hws => ?_, fun s c => ?_, fun s t r rest h => ?_⟩
  · exact ⟨fillTo_getD hbytes, fillTo_getD hws, fillTo_length _ _ _, fillTo_length _ _ _, rfl, rfl, rfl⟩
  · exact ⟨fillTo_nil _ _, rfl, fillTo_nil _ _, rfl, rfl⟩
  · obtain ⟨c, res, href, rfl⟩ := step_issue_next h
    have answers : ∀ s2 : State, reference s2.params s2.arg s2.inBuf s2.inLen r = .ok res → s2.Answers r res := by
      intro s2 href2
      have hs2 := blockIsTheSourceFunctions s2 r
      rw [href2] at hs2
      exact hs2
    refine ⟨⟨res, answers s href⟩, fun s2 rest2 hp ha hb hl => ?_⟩
    obtain ⟨c2, hstep⟩ := answers s2 (by rw [hp, ha, hb, hl, href]) rest2
    exact ⟨_, hstep, State.writeResult_results (by exact hp) res⟩

end Sys2Proof.Machine
end

section
/-! Proofs, family 10_state: the steps that fault (R15, R16, R109). -/

namespace Sys2Proof.Machine

variable {s : State} {f : Fault}

theorem State.writeArg_fault_iff {j : Nat} {a : Word} :
    s.writeArg j a = .fault f ↔ s.params.maxArgWords ≤ j ∧ f = .noSuchElement := by
  unfold State.writeArg
  split_ifs with h
  · simp [h]
  · simp [Nat.not_lt.mp h, eq_comm]

theorem State.writeIn_fault_iff {i : Nat} {b : Byte} :
    s.writeIn i b = .fault f ↔ s.params.inCap ≤ i ∧ f = .noSuchElement := by
  unfold State.writeIn
  split_ifs with h
  · simp [h]
  · simp [Nat.not_lt.mp h, eq_comm]

theorem State.writeInLen_fault_iff {n : Nat} :
    s.writeInLen n = .fault f ↔ s.params.inCap < n ∧ f = .noSuchElement := by
  unfold State.writeInLen
  split_ifs with h
  · simp [h]
  · simp [Nat.not_le.mp h, eq_comm]

theorem State.loadFrame_fault_iff {bytes : List Byte} :
    s.loadFrame bytes = .fault f ↔ s.params.inCap < bytes.length ∧ f = .noSuchElement := by
  unfold State.loadFrame
  split_ifs with h
  · simp [h]
  · simp [Nat.not_le.mp h, eq_comm]

/-- A response function gives a value when the response it needs is there (R109). -/
theorem State.interpret_of_available {g : ResponseField} (h : s.status = 0x0#4 ∧ s.wcount = g.wordCount) :
    ∃ v, s.interpret g = .ok v := by
  cases g <;> exact ⟨_, if_pos h⟩

theorem State.interpret_of_not_available {g : ResponseField}
    (h : ¬ (s.status = 0x0#4 ∧ s.wcount = g.wordCount)) : s.interpret g = .error .responseNotAvailable :=
  if_neg h

theorem State.useResponse_fault_iff {g : ResponseField} :
    s.useResponse g = .fault f ↔
      ¬ (s.status = 0x0#4 ∧ s.wcount = g.wordCount) ∧ f = .responseNotAvailable := by
  by_cases h : s.status = 0x0#4 ∧ s.wcount = g.wordCount
  · obtain ⟨v, hv⟩ := State.interpret_of_available h
    simp [State.useResponse, hv, h]
  · simp only [State.useResponse, State.interpret_of_not_available h, and_iff_right h]
    simp [eq_comm]

/-- Reading the arguments fails at the first index that holds no value. -/
theorem readArgs_error_iff {arg : List (Option Word)} {k : Nat} :
    readArgs arg 0 k = .error f ↔ ∃ j, j < k ∧ arg.getD j none = none ∧
      (∀ i, i < j → arg.getD i none ≠ none) ∧ f = .argNotWritten j := by
  constructor
  · intro h
    obtain ⟨j, _, hjk, hj, hfirst, hf⟩ := readArgs_error _ _ _ h
    exact ⟨j, by omega, hj, fun i hi => hfirst i (Nat.zero_le i) hi, hf⟩
  · rintro ⟨j, hjk, hj, hfirst, rfl⟩
    cases hr : readArgs arg 0 k with
    | ok args =>
      obtain ⟨hlen, hread⟩ := readArgs_ok _ _ _ hr
      have hsome := hread j (hlen ▸ hjk)
      rw [Nat.zero_add, hj] at hsome
      cases hsome
    | error e =>
      obtain ⟨i, _, _, hi, hfirst', rfl⟩ := readArgs_error _ _ _ hr
      have hij : ¬ i < j := fun hlt => hfirst i hlt hi
      have hji : ¬ j < i := fun hlt => hfirst' j (Nat.zero_le j) hlt hj
      rw [show i = j by omega]

/-- The reference function fails only in reading the arguments of a legal ENC_CMD_ARGS (R15, R75). -/
theorem reference_error_iff {p : Params} {arg : List (Option Word)} {inBuf : List Byte} {inLen : Nat} {r : Req} :
    reference p arg inBuf inLen r = .error f ↔
      ¬ IllegalReq p r ∧ ¬ UnknownReq r ∧ opOf r = 3 ∧ readArgs arg 0 (nOf r) = .error f := by
  unfold reference
  split_ifs with hillegal hunknown h0 h1 h2 h3 hlen
  · exact ⟨nofun, fun h => absurd hillegal h.1⟩
  · exact ⟨nofun, fun h => absurd hunknown h.2.1⟩
  · simp [h0]
  · simp [h1]
  · simp [h2]
  · rw [and_iff_right hillegal, and_iff_right hunknown, and_iff_right h3]
    cases readArgs arg 0 (nOf r) <;> simp
  · simp [h3]
  · cases decodeFrame inBuf (nOf r) <;> simp [h3]

theorem State.issueRequest_fault_iff {r : Req} :
    s.issueRequest r = .fault f ↔ ¬ IllegalReq s.params r ∧ ¬ UnknownReq r ∧ opOf r = 3 ∧
      ∃ j, j < nOf r ∧ s.arg.getD j none = none ∧ (∀ i, i < j → s.arg.getD i none ≠ none) ∧ f = .argNotWritten j := by
  have hrefs : s.issueRequest r = .fault f ↔ reference s.params s.arg s.inBuf s.inLen r = .error f := by
    have hc := s.issueRequest_computes r
    cases href : reference s.params s.arg s.inBuf s.inLen r with
    | ok res => rw [href] at hc; obtain ⟨c, hc⟩ := hc; simp [hc]
    | error e => rw [href] at hc; simp [show s.issueRequest r = .fault e from hc]
  rw [hrefs, reference_error_iff, readArgs_error_iff]

/-- Settles O27: by the host action that the step performs. -/
theorem stepFaultsExactlyWhen : Obligations.StepFaultsExactlyWhen := by
  intro s f
  cases hs : s.host with
  | nil => simp [step, hs]
  | cons a rest =>
    have hstep : step s = State.hostAct { s with host := rest } a := by simp only [step, hs]
    rw [hstep]
    cases a with
    | writeArg j a => simp [State.hostAct, State.writeArg_fault_iff]
    | writeIn i b => simp [State.hostAct, State.writeIn_fault_iff]
    | writeInLen n => simp [State.hostAct, State.writeInLen_fault_iff]
    | loadFrame bytes => simp [State.hostAct, State.loadFrame_fault_iff]
    | recv bytes => simp [State.hostAct, State.loadFrame_fault_iff]
    | issue r => simp [State.hostAct, State.issueRequest_fault_iff, State.argWord]
    | send => simp [State.hostAct]
    | wait ms => simp [State.hostAct]
    | interpret g => simp [State.hostAct, State.useResponse_fault_iff]
    | reset => simp [State.hostAct]

end Sys2Proof.Machine
end

section
/-! Proofs, family 10_state: what a request reads of ARG and IN (R15, R16; 93_implementation_defined.md I2). A request
commutes with putting other contents into the two buffers, when they agree on the elements that it reads. -/

namespace Sys2Proof.Machine

/-- The state with other contents in ARG and IN. -/
def State.withBuffers (s : State) (arg : List (Option Word)) (inBuf : List Byte) : State :=
  { s with arg := arg, inBuf := inBuf }

/-- An outcome with other contents in ARG and IN of its next state. -/
def outcomeWithBuffers (arg : List (Option Word)) (inBuf : List Byte) :
    Host.Outcome State Fault Refusal → Host.Outcome State Fault Refusal
  | .next t => .next (t.withBuffers arg inBuf)
  | .fault f => .fault f
  | .refused e => .refused e

variable {arg : List (Option Word)} {inBuf : List Byte}

@[simp] theorem outcomeWithBuffers_next (t : State) :
    outcomeWithBuffers arg inBuf (.next t) = .next (t.withBuffers arg inBuf) := rfl
@[simp] theorem outcomeWithBuffers_fault (f : Fault) : outcomeWithBuffers arg inBuf (.fault f) = .fault f := rfl

@[simp] theorem State.withBuffers_params (s : State) : (s.withBuffers arg inBuf).params = s.params := rfl
@[simp] theorem State.withBuffers_inLen (s : State) : (s.withBuffers arg inBuf).inLen = s.inLen := rfl
@[simp] theorem State.withBuffers_argWord (s : State) (j : Nat) :
    (s.withBuffers arg inBuf).argWord j = arg.getD j none := rfl
@[simp] theorem State.withBuffers_inByte (s : State) (i : Nat) :
    (s.withBuffers arg inBuf).inByte i = inBuf.getD i 0x00#8 := rfl
@[simp] theorem State.withBuffers_crcWord (s : State) (w : Word) :
    (s.withBuffers arg inBuf).crcWord w = (s.crcWord w).withBuffers arg inBuf := rfl
@[simp] theorem State.withBuffers_crcByte (s : State) : (s.withBuffers arg inBuf).crcByte = s.crcByte := rfl
@[simp] theorem State.withBuffers_writeResult (s : State) (res : Result) :
    (s.withBuffers arg inBuf).writeResult res = (s.writeResult res).withBuffers arg inBuf := by
  cases res <;> rfl

/-- Running the arguments `j, …, j+k-1` through the CRC register reads no other element of ARG, and nothing of IN. -/
theorem State.argGroups_withBuffers (k : Nat) : ∀ (s : State) (j : Nat),
    (∀ i, j ≤ i → i < j + k → arg.getD i none = s.argWord i) →
    (s.withBuffers arg inBuf).argGroups j k =
      (s.argGroups j k).map (Prod.map id (State.withBuffers · arg inBuf)) := by
  induction k with
  | zero => intro s j _; rfl
  | succ k ih =>
    intro s j h
    have hj : (s.withBuffers arg inBuf).argWord j = s.argWord j := h j le_rfl (by omega)
    simp only [State.argGroups, hj]
    cases s.argWord j with
    | none => rfl
    | some a =>
      have hrest := ih (s.crcWord a) (j + 1) fun i hi hlt => h i (by omega) (by omega)
      simp only [State.withBuffers_crcWord, hrest]
      cases (s.crcWord a).argGroups (j + 1) k <;> rfl

/-- Checking the groups `j, …, j+k-1` of a frame reads no other byte of IN, and nothing of ARG. -/
theorem State.frameWords_withBuffers (k : Nat) : ∀ (s : State) (j : Nat),
    (∀ i, i < 3 * (j + k) → inBuf.getD i 0x00#8 = s.inByte i) →
    (s.withBuffers arg inBuf).frameWords j k =
      Prod.map id (State.withBuffers · arg inBuf) (s.frameWords j k) := by
  induction k with
  | zero => intro s j _; rfl
  | succ k ih =>
    intro s j h
    have hbyte : ∀ i, i < 3 * (j + 1) → (s.withBuffers arg inBuf).inByte i = s.inByte i :=
      fun i hi => h i (by omega)
    have h0 := hbyte (3 * j) (by omega)
    have h1 := hbyte (3 * j + 1) (by omega)
    have h2 := hbyte (3 * j + 2) (by omega)
    simp only [State.frameWords, h0, h1, h2, State.withBuffers_crcWord, State.withBuffers_crcByte]
    have hrest := ih (s.crcWord (be16Join (s.inByte (3 * j)) (s.inByte (3 * j + 1)))) (j + 1)
      fun i hi => h i (by omega)
    split_ifs with hcrc
    · rw [hrest]
      rcases (State.frameWords _ (j + 1) k) with ⟨_ | ws, u⟩ <;> rfl
    · rfl

theorem execCrc8_withBuffers (w : Word) (s : State) :
    execCrc8 w (s.withBuffers arg inBuf) = outcomeWithBuffers arg inBuf (execCrc8 w s) := by
  simp [execCrc8]

theorem execEncCmd_withBuffers (w : Word) (s : State) :
    execEncCmd w (s.withBuffers arg inBuf) = outcomeWithBuffers arg inBuf (execEncCmd w s) := by
  unfold execEncCmd
  split_ifs <;> simp

theorem execEncWord_withBuffers (w : Word) (s : State) :
    execEncWord w (s.withBuffers arg inBuf) = outcomeWithBuffers arg inBuf (execEncWord w s) := by
  simp [execEncWord]

theorem execEncArgs_withBuffers {n : BitVec 4} (w : Word) {s : State}
    (h : ∀ j, j < n.toNat → arg.getD j none = s.argWord j) :
    execEncArgs n w (s.withBuffers arg inBuf) = outcomeWithBuffers arg inBuf (execEncArgs n w s) := by
  have hgroups := State.argGroups_withBuffers (inBuf := inBuf) n.toNat s 0 fun i _ hi => h i (by omega)
  simp only [execEncArgs, State.withBuffers_params, hgroups]
  split_ifs
  · simp
  · simp
  · cases s.argGroups 0 n.toNat <;> simp [Except.map]

/-- DEC_FRAME reads below IN_LEN: it reads a frame only when its `n` groups fill IN_LEN. -/
theorem execDecFrame_withBuffers (n : BitVec 4) {s : State}
    (h : ∀ i, i < s.inLen → inBuf.getD i 0x00#8 = s.inByte i) :
    execDecFrame n (s.withBuffers arg inBuf) = outcomeWithBuffers arg inBuf (execDecFrame n s) := by
  by_cases hn : s.params.maxRespWords < n.toNat
  · simp [execDecFrame, hn]
  · by_cases hlen : s.inLen = 3 * n.toNat
    · have hwords := State.frameWords_withBuffers (arg := arg) n.toNat s 0 fun i hi => h i (by omega)
      simp only [execDecFrame, State.withBuffers_params, State.withBuffers_inLen, hn, hlen, hwords]
      rcases s.frameWords 0 n.toNat with ⟨_ | ws, t⟩ <;> simp
    · simp [execDecFrame, hn, hlen]

/-- A request reads ARG only as ENC_CMD_ARGS and below N, and IN only as DEC_FRAME and below IN_LEN. -/
theorem State.issueRequest_withBuffers {s : State} {r : Req}
    (harg : opOf r = 3 → ∀ j, j < nOf r → arg.getD j none = s.argWord j)
    (hin : opOf r = 4 → ∀ i, i < s.inLen → inBuf.getD i 0x00#8 = s.inByte i) :
    (s.withBuffers arg inBuf).issueRequest r = outcomeWithBuffers arg inBuf (s.issueRequest r) := by
  have hreq : { s.withBuffers arg inBuf with req := r } = State.withBuffers { s with req := r } arg inBuf := rfl
  unfold State.issueRequest
  rw [hreq]
  by_cases hm : MalformedReq r
  · obtain ⟨e, he⟩ := decodeReq_of_malformed hm
    simp [he]
  · rcases decodeReq_of_not_malformed hm with ⟨_, hd⟩ | ⟨_, hd⟩ | ⟨_, hd⟩ | ⟨hop, hd⟩ | ⟨hop, hd⟩ <;> simp only [hd]
    · exact execCrc8_withBuffers _ _
    · simp only [exec_bareCommand, execEncCmd_withBuffers]
    · exact execEncWord_withBuffers _ _
    · exact execEncArgs_withBuffers _ (reqN_toNat r ▸ harg hop)
    · exact execDecFrame_withBuffers _ (hin hop)

/-- A step that issues a request, with other contents in ARG and IN that agree where the request reads them. -/
theorem step_issue_withBuffers {s t : State} {r : Req} {rest : List HostAction}
    (harg : opOf r = 3 → ∀ j, j < nOf r → arg.getD j none = s.arg.getD j none)
    (hin : opOf r = 4 → ∀ i, i < s.inLen → inBuf.getD i 0x00#8 = s.inBuf.getD i 0x00#8)
    (h : step { s with host := .issue r :: rest } = .next t) :
    step { s with arg := arg, inBuf := inBuf, host := .issue r :: rest } =
      .next { t with arg := arg, inBuf := inBuf } := by
  rw [step_issue] at h
  have hreq := State.issueRequest_withBuffers (s := { s with host := rest }) harg hin
  rw [h] at hreq
  exact hreq

/-- Settles O25: only ARG is exchanged, and IN is what the request left it. -/
theorem argIsReadOnlyByEncArgs : Obligations.ArgIsReadOnlyByEncArgs := by
  intro s t r arg2 rest harg h
  obtain ⟨_, _, hinBuf, _⟩ := inputRegistersAreNeverWritten.2 s t r rest h
  rw [hinBuf]
  exact step_issue_withBuffers harg (fun _ _ _ => rfl) h

/-- Settles O26: only IN is exchanged, and ARG is what the request left it. -/
theorem inIsReadOnlyByDecFrame : Obligations.InIsReadOnlyByDecFrame := by
  intro s t r buf2 rest hin h
  obtain ⟨_, harg, _⟩ := inputRegistersAreNeverWritten.2 s t r rest h
  rw [harg]
  exact step_issue_withBuffers (fun _ _ _ => rfl) hin h

end Sys2Proof.Machine
end

section
/-! Proofs, family 20_memory: what a step is for a REQ that the decoder accepts and for one it rejects (R29, R30, R57),
and which REQ an instruction is issued by (R61). -/

namespace Sys2Proof.Machine

theorem step_issue_of_decode {r : Req} {i : Instr} (hd : decodeReq r = .ok i) (s : State) (rest : List HostAction) :
    step { s with host := .issue r :: rest } = exec i { s with host := rest, req := r } := by
  simp only [step_issue, State.issueRequest, hd]

theorem step_issue_of_reject {r : Req} {e : Reject} (hd : decodeReq r = .error e) (s : State)
    (rest : List HostAction) : step { s with host := .issue r :: rest } =
      .next (State.raise { s with host := rest, req := r } .illegalOperation) := by
  simp only [step_issue, State.issueRequest, hd]

theorem encode_instr (c : Command) : encode c.instr = commandReq c.code := by
  cases c <;> rfl

theorem bareCommand_code (c : Command) : bareCommand c.code = c.instr := by
  simp only [bareCommand, Command.ofCode?_code]

theorem decodeReq_commandReq (w : Word) : decodeReq (commandReq w) = .ok (bareCommand w) := by
  simp [decodeReq, commandReq, checkFields]

/-- Each of the five operations is read back from its fields (R45), and each command from its code in `enc.cmd`. -/
theorem decodeReq_encode {i : Instr} (h : i.wf = true) : decodeReq (encode i) = .ok i := by
  cases i with
  | crc8 w => simp [encode, decodeReq, checkFields]
  | encWord w => simp [encode, decodeReq, checkFields]
  | encArgs n w => simp [encode, decodeReq, checkFields]
  | decFrame n => simp [encode, decodeReq, checkFields]
  | encCmd w =>
    have hw : Command.ofCode? w = none := by simpa [Instr.wf] using h
    have hbare : bareCommand w = .encCmd w := by simp only [bareCommand, hw]
    exact (decodeReq_commandReq w).trans (congrArg _ hbare)
  | _ => exact decodeReq_commandReq _

theorem tableReq_32 (w : Nat) : tableReq 32 w = BitVec.ofNat 32 w := rfl

/-- A 16-bit word of the table that is a command's code stands for the command's own REQ (log entry 9). -/
theorem tableReq_16_code (c : Command) : tableReq 16 c.code.toNat = encode c.instr := by
  simp [tableReq, encode_instr]

/-- Settles O37: the step issues the REQ, and the decoder gives back the instruction of each encoding. -/
theorem stepRunsTheDecodedInstruction : Obligations.StepRunsTheDecodedInstruction := by
  refine ⟨fun s r i rest hd => step_issue_of_decode hd s rest, fun s r e rest hd => step_issue_of_reject hd s rest,
    fun s i hi => step_issue_of_decode (decodeReq_encode hi) s s.host, fun s w => ?_, fun s c => ?_, fun s hs => ?_⟩
  · rw [State.withFetchWord, tableReq_32]
  · have hd : decodeReq (encode c.instr) = .ok c.instr := by
      rw [encode_instr, decodeReq_commandReq, bareCommand_code]
    rw [State.withFetchWord, tableReq_16_code]
    exact step_issue_of_decode hd s s.host
  · simp only [step, hs]

end Sys2Proof.Machine
end

section
/-! Proofs, family 20_memory: what the CRC register holds after a request (R22), and a request issued again (R41, R80).
A request that runs no word through the register leaves it as it is; any other leaves the CRC of its last word, whatever
the register held before. -/

namespace Sys2Proof.Machine

/-- What the CRC register holds after running over the words in order, from the value `c`. -/
def crcAfter (c : Byte) (ws : List Word) : Byte := ws.foldl (fun _ w => crc8 w) c

@[simp] theorem crcAfter_nil (c : Byte) : crcAfter c [] = c := rfl
@[simp] theorem crcAfter_cons (c : Byte) (w : Word) (ws : List Word) :
    crcAfter c (w :: ws) = crcAfter (crc8 w) ws := rfl

/-- Running over the same words again changes nothing: the first word starts the register afresh (R22). -/
theorem crcAfter_crcAfter (c : Byte) (ws : List Word) : crcAfter (crcAfter c ws) ws = crcAfter c ws := by
  cases ws <;> rfl

@[simp] theorem State.crcWord_crc (s : State) (w : Word) : (s.crcWord w).crc = crc8 w := by
  simp [← s.crcWord_crcByte w, State.crcByte]

/-- The word in group `i` of a frame, whether or not its CRC byte matches (R35). -/
def groupWord (inBuf : List Byte) (i : Nat) : Word :=
  be16Join (inBuf.getD (3 * i) 0x00#8) (inBuf.getD (3 * i + 1) 0x00#8)

/-- The words of the groups `i, …, i+k-1` of a frame, up to and with the first that does not match (R117). -/
def checkedWords (inBuf : List Byte) (i : Nat) : Nat → List Word
  | 0 => []
  | k + 1 => groupWord inBuf i :: if groupAt inBuf i = none then [] else checkedWords inBuf (i + 1) k

/-- The words that an instruction runs through the CRC register when it completes (R22). -/
def State.crcWords (s : State) : Instr → List Word
  | .crc8 w => [w]
  | .encWord w => [w]
  | .encArgs n w =>
    if s.params.maxArgWords < n.toNat ∨ isCommandCode w = false then []
    else (List.range' 0 n.toNat).filterMap s.argWord
  | .decFrame n =>
    if s.params.maxRespWords < n.toNat ∨ s.inLen ≠ 3 * n.toNat then [] else checkedWords s.inBuf 0 n.toNat
  | _ => []

theorem State.argGroups_crc (k : Nat) : ∀ {s t : State} {j : Nat} {bytes : List Byte},
    s.argGroups j k = .ok (bytes, t) → t.crc = crcAfter s.crc ((List.range' j k).filterMap s.argWord) := by
  induction k with
  | zero => intro s t j bytes h; cases h; rfl
  | succ k ih =>
    intro s t j bytes h
    simp only [State.argGroups] at h
    cases ha : s.argWord j with
    | none => simp [ha] at h
    | some a =>
      cases hr : (s.crcWord a).argGroups (j + 1) k with
      | error e => simp [ha, hr] at h
      | ok out =>
        obtain ⟨-, rfl⟩ : _ ∧ out.2 = t := by simpa [ha, hr] using h
        have hread : (s.crcWord a).argWord = s.argWord := rfl
        simpa [List.range'_succ, ha, hread] using ih hr

theorem State.frameWords_crc (k : Nat) : ∀ (s : State) (i : Nat),
    (s.frameWords i k).2.crc = crcAfter s.crc (checkedWords s.inBuf i k) := by
  induction k with
  | zero => intro s i; rfl
  | succ k ih =>
    intro s i
    have hword : be16Join (s.inByte (3 * i)) (s.inByte (3 * i + 1)) = groupWord s.inBuf i := rfl
    simp only [State.frameWords, hword, State.crcWord_crcByte, checkedWords]
    by_cases hm : crc8 (groupWord s.inBuf i) = s.inByte (3 * i + 2)
    · have hg : groupAt s.inBuf i = some (groupWord s.inBuf i) := if_pos hm
      have hrest := ih (s.crcWord (groupWord s.inBuf i)) (i + 1)
      simp only [State.crcWord_crc, State.crcWord_inBuf] at hrest
      rw [if_pos hm, crcAfter_cons, hg, if_neg nofun, ← hrest]
      rcases State.frameWords _ (i + 1) k with ⟨_ | ws, u⟩ <;> rfl
    · have hg : groupAt s.inBuf i = none := if_neg hm
      simp [hm, hg]

theorem execEncArgs_crc {n : BitVec 4} {w : Word} {s t : State} (h : execEncArgs n w s = .next t) :
    t.crc = crcAfter s.crc (s.crcWords (.encArgs n w)) := by
  unfold execEncArgs at h
  split_ifs at h with hn hw
  · cases h; rw [State.crcWords, if_pos (.inl hn)]; rfl
  · cases h; rw [State.crcWords, if_pos (.inr hw)]; rfl
  · rw [State.crcWords, if_neg (not_or.mpr ⟨hn, hw⟩)]
    cases hr : s.argGroups 0 n.toNat with
    | error e => simp [hr] at h
    | ok out =>
      obtain rfl : out.2.writeResult _ = t := by simpa [hr] using h
      exact (out.2.writeResult_crc _).trans (State.argGroups_crc _ hr)

theorem execDecFrame_crc {n : BitVec 4} {s t : State} (h : execDecFrame n s = .next t) :
    t.crc = crcAfter s.crc (s.crcWords (.decFrame n)) := by
  unfold execDecFrame at h
  split_ifs at h with hn hl
  · cases h; rw [State.crcWords, if_pos (.inl hn)]; rfl
  · cases h; rw [State.crcWords, if_pos (.inr hl)]; rfl
  · rw [State.crcWords, if_neg (not_or.mpr ⟨hn, hl⟩), ← s.frameWords_crc]
    rcases hr : s.frameWords 0 n.toNat with ⟨_ | ws, u⟩ <;> rw [hr] at h <;> cases h <;> rfl

/-- What every instruction leaves in the CRC register. -/
theorem exec_crc {i : Instr} {s t : State} (h : exec i s = .next t) : t.crc = crcAfter s.crc (s.crcWords i) := by
  cases i with
  | crc8 w => cases (execCrc8_eq w s).symm.trans h; rfl
  | encWord w => cases (execEncWord_eq w s).symm.trans h; rfl
  | encCmd w =>
    simp only [exec, execEncCmd] at h
    split_ifs at h <;> cases h <;> rfl
  | encArgs n w => exact execEncArgs_crc h
  | decFrame n => exact execDecFrame_crc h
  | _ => cases h; rfl

/-- The words that a request runs through the CRC register when it completes; a rejected REQ runs none. -/
def State.requestWords (s : State) (r : Req) : List Word :=
  match decodeReq r with
  | .ok i => s.crcWords i
  | .error _ => []

/-- The words depend on the parameters and the input registers alone. -/
theorem State.crcWords_congr {s t : State} (hparams : t.params = s.params) (harg : t.arg = s.arg)
    (hinBuf : t.inBuf = s.inBuf) (hinLen : t.inLen = s.inLen) (i : Instr) : t.crcWords i = s.crcWords i := by
  have hread : t.argWord = s.argWord := by funext j; rw [State.argWord, State.argWord, harg]
  cases i <;> simp only [State.crcWords, hparams, hread, hinBuf, hinLen]

theorem step_issue_crc {s t : State} {r : Req} {rest : List HostAction}
    (h : step { s with host := .issue r :: rest } = .next t) : t.crc = crcAfter s.crc (s.requestWords r) := by
  unfold State.requestWords
  cases hd : decodeReq r with
  | ok i =>
    rw [step_issue_of_decode hd] at h
    exact (exec_crc h).trans (congrArg (crcAfter s.crc) (State.crcWords_congr rfl rfl rfl rfl i))
  | error e => rw [step_issue_of_reject hd] at h; cases h; rfl

/-- A request issued again finds the inputs it had (R20), so it runs over the same words. -/
theorem step_issue_requestWords {s t : State} {r : Req} {rest : List HostAction}
    (h : step { s with host := .issue r :: rest } = .next t) : t.requestWords r = s.requestWords r := by
  obtain ⟨-, harg, hinBuf, hinLen, hparams, -⟩ := inputRegistersAreNeverWritten.2 s t r rest h
  unfold State.requestWords
  cases decodeReq r with
  | error e => rfl
  | ok i => exact State.crcWords_congr hparams harg hinBuf hinLen i

/-- A request issued again writes the same result, and the CRC register keeps what it holds. -/
theorem step_issue_again {s t : State} {r : Req} {rest : List HostAction}
    (h : step { s with host := .issue r :: rest } = .next t) (rest2 : List HostAction) :
    step { t with host := .issue r :: rest2 } = .next { t with host := rest2 } := by
  obtain ⟨c, res, href, ht⟩ := step_issue_next h
  have hanswer := step_issue_computes t r rest2
  rw [show reference t.params t.arg t.inBuf t.inLen r = .ok res by simpa [ht] using href] at hanswer
  obtain ⟨c2, hagain⟩ := hanswer
  have hcrc : c2 = t.crc := calc
    c2 = crcAfter t.crc (t.requestWords r) := by simpa using step_issue_crc hagain
    _ = crcAfter (crcAfter s.crc (s.requestWords r)) (s.requestWords r) := by
      rw [step_issue_requestWords h, step_issue_crc h]
    _ = t.crc := by rw [crcAfter_crcAfter, step_issue_crc h]
  rw [hagain, hcrc, ht]
  cases res <;> rfl

/-- Settles O24: by operation on the whole state; `send` and `interpret` only read. -/
theorem reissuedRequestGivesTheSameState : Obligations.ReissuedRequestGivesTheSameState :=
  ⟨fun _ _ _ _ rest2 h => step_issue_again h rest2, fun _ _ => rfl, fun _ _ _ _ h => State.useResponse_next h⟩

end Sys2Proof.Machine
end

section
/-! Proofs, family 20_memory: what each write of the host changes (R15, R16, R30, R38). -/

namespace Sys2Proof.Machine

/-- A loaded frame stands in IN from index 0, and IN keeps its size. -/
theorem loadFrame_buffer {bytes inBuf : List Byte} (h : bytes.length ≤ inBuf.length) :
    (bytes ++ inBuf.drop bytes.length).length = inBuf.length ∧
    ∀ (i : Nat) (hi : i < bytes.length), (bytes ++ inBuf.drop bytes.length).getD i 0x00#8 = bytes[i] := by
  refine ⟨by simp; omega, fun i hi => ?_⟩
  rw [List.getD_append _ _ _ _ hi, List.getD_eq_getElem _ _ hi]

/-- Settles O44: each write is inside its buffer, so it takes place. -/
theorem hostWritesChangeTheirRegistersOnly : Obligations.HostWritesChangeTheirRegistersOnly := by
  intro s rest
  refine ⟨fun j a hj => ?_, fun i b hi => ?_, fun n hn => ?_, fun bytes hlen hsize => ?_, rfl, fun _ => rfl⟩
  · exact (step_writeArg s rest j a).trans (if_pos hj)
  · exact (step_writeIn s rest i b).trans (if_pos hi)
  · exact (step_writeInLen s rest n).trans (if_pos hn)
  · obtain ⟨hbuf, hbytes⟩ := loadFrame_buffer (hsize.symm ▸ hlen)
    exact ⟨_, hbuf.trans hsize, hbytes, (step_loadFrame s rest bytes).trans (if_pos hlen),
      (step_recv s rest bytes).trans (if_pos hlen)⟩

end Sys2Proof.Machine
end

section
/-! Proofs, family 30_encoding: the decoder against the encoder (R45 to R49, R57, R61, R62). -/

namespace Sys2Proof.Machine

/-- R61 for the fields of any request. -/
theorem packReq_toNat (op n : BitVec 4) (w : Word) :
    (packReq op n w).toNat = (op.toNat <<< 28) ||| (n.toNat <<< 24) ||| w.toNat := by
  have hw : (packReq op n w).toNat = (op ++ n ++ 0x00#8).toNat <<< 16 ||| w.toNat := BitVec.toNat_append _ _
  rw [hw, BitVec.toNat_append, BitVec.toNat_append]
  simp [Nat.shiftLeft_or_distrib, ← Nat.shiftLeft_add]

/-- A REQ whose RSV is zero is its other fields packed again, so these determine it. -/
theorem packReq_fields {r : Req} (hrsv : rsvOf r = 0) :
    packReq (BitVec.ofNat 4 (opOf r)) (BitVec.ofNat 4 (nOf r)) (wOf r) = r := by
  have hop : BitVec.ofNat 4 (opOf r) = reqOp r := by rw [← reqOp_toNat]; simp
  have hzero : 0x00#8 = reqRsv r := ((reqRsv_eq_zero_iff r).mpr hrsv).symm
  rw [hop, ← reqN_eq_ofNat, ← reqW_eq_wOf, packReq, hzero]
  unfold reqOp reqN reqRsv reqW
  rw [BitVec.extractLsb'_append_extractLsb'_eq_extractLsb' (by rfl),
    BitVec.extractLsb'_append_extractLsb'_eq_extractLsb' (by rfl),
    BitVec.extractLsb'_append_extractLsb'_eq_extractLsb' (by rfl)]
  exact BitVec.extractLsb'_eq_self

/-- Every instruction is encoded by its fields, with RSV = 0. -/
theorem encode_eq_packReq (i : Instr) : ∃ op n w, encode i = packReq op n w := by
  cases i <;> exact ⟨_, _, _, rfl⟩

theorem rsvOf_packReq (op n : BitVec 4) (w : Word) : rsvOf (packReq op n w) = 0 :=
  (reqRsv_eq_zero_iff _).mp (reqRsv_packReq op n w)

theorem wf_instr (c : Command) : c.instr.wf = true := by
  cases c <;> rfl

theorem bareCommand_cases (w : Word) :
    (Command.ofCode? w = none ∧ bareCommand w = .encCmd w) ∨ ∃ c : Command, c.code = w ∧ bareCommand w = c.instr := by
  cases h : Command.ofCode? w with
  | none => exact .inl ⟨rfl, by simp only [bareCommand, h]⟩
  | some c => exact .inr ⟨c, Command.code_of_ofCode? h, by simp only [bareCommand, h]⟩

theorem wf_bareCommand (w : Word) : (bareCommand w).wf = true := by
  rcases bareCommand_cases w with ⟨hnone, h⟩ | ⟨c, -, h⟩
  · rw [h, Instr.wf, hnone]; rfl
  · rw [h, wf_instr]

theorem encode_bareCommand (w : Word) : encode (bareCommand w) = commandReq w := by
  rcases bareCommand_cases w with ⟨-, h⟩ | ⟨c, hc, h⟩
  · rw [h]; rfl
  · rw [h, encode_instr, hc]

/-- Settles O33: by instruction, as `decodeReq_encode` says. -/
theorem decodeUndoesEncode : Obligations.DecodeUndoesEncode := fun _ hi => decodeReq_encode hi

theorem not_malformed_of_decodeReq {r : Req} {i : Instr} (h : decodeReq r = .ok i) : ¬ MalformedReq r := by
  intro hm
  obtain ⟨e, he⟩ := decodeReq_of_malformed hm
  cases he.symm.trans h

/-- Settles O34: an accepted REQ has RSV = 0 and zero in every field that its operation does not use, so packing the
fields that the instruction keeps gives it back. -/
theorem encodeUndoesDecode : Obligations.EncodeUndoesDecode := by
  intro r i h
  have hm := not_malformed_of_decodeReq h
  have hcases := decodeReq_of_not_malformed hm
  simp only [MalformedReq, not_or, not_and, not_not, not_le] at hm
  obtain ⟨-, hrsv, hn, hw⟩ := hm
  have hr := packReq_fields hrsv
  rcases hcases with ⟨hop, hd⟩ | ⟨hop, hd⟩ | ⟨hop, hd⟩ | ⟨hop, hd⟩ | ⟨hop, hd⟩ <;>
    (cases hd.symm.trans h; rw [hop] at hr)
  · rw [hn (by omega)] at hr
    exact ⟨rfl, hr⟩
  · rw [hn (by omega)] at hr
    exact ⟨wf_bareCommand _, (encode_bareCommand _).trans hr⟩
  · rw [hn (by omega)] at hr
    exact ⟨rfl, hr⟩
  · rw [← reqN_eq_ofNat] at hr
    exact ⟨rfl, hr⟩
  · rw [← reqN_eq_ofNat, hw hop] at hr
    exact ⟨rfl, hr⟩

/-- R62(2) over the fields as numbers. -/
theorem checkFields_eq (r : Req) (usesN usesW : Bool) (i : Instr) : checkFields r usesN usesW i =
    if rsvOf r ≠ 0 then .error .reservedField
    else if usesN = false ∧ nOf r ≠ 0 then .error .wordCount
    else if usesW = false ∧ wOf r ≠ 0x0000#16 then .error .wordField
    else .ok i := by
  have hw : reqW r ≠ 0 ↔ wOf r ≠ 0x0000#16 := by rw [reqW_eq_wOf]; rfl
  simp only [checkFields, ne_eq, reqRsv_eq_zero_iff, reqN_eq_zero_iff] at hw ⊢
  simp only [hw]

/-- Settles O35: for each operation, the checks of its own unused fields are those of the common chain. -/
theorem decoderRejectsByName : Obligations.DecoderRejectsByName := by
  intro r
  have hop : opOf r = 0 ∨ opOf r = 1 ∨ opOf r = 2 ∨ opOf r = 3 ∨ opOf r = 4 ∨ 5 ≤ opOf r := by omega
  rw [decodeReq_eq]
  rcases hop with h | h | h | h | h | h
  · simp [h, checkFields_eq]
  · simp [h, checkFields_eq]
  · simp [h, checkFields_eq]
  · simp [h, checkFields_eq, reqN_eq_ofNat]
  · simp [h, checkFields_eq, reqN_eq_ofNat]
  · have hne : ∀ k, k < 5 → opOf r ≠ k := fun k hk => by omega
    simp [h, hne]

/-- Settles O32: every instruction's encoding packs its fields. -/
theorem requestEncodingFormula : Obligations.RequestEncodingFormula := by
  refine ⟨fun w => ⟨packReq_toNat _ _ w, packReq_toNat _ _ w, packReq_toNat _ _ w⟩, fun n w => packReq_toNat _ n w,
    fun n => packReq_toNat _ n _, fun c => ?_, fun i => ?_, rfl, rfl, rfl, rfl, rfl⟩
  · rw [encode_instr]
    exact packReq_toNat _ _ _
  · obtain ⟨op, n, w, h⟩ := encode_eq_packReq i
    rw [h, rsvOf_packReq]

/-- Settles O36: the accepted values are encodings, and each rejected one fails the named check of the chain. -/
theorem specRequestsDecode : Obligations.SpecRequestsDecode := by
  refine ⟨decodeReq_encode (i := .crc8 0xBEEF#16) rfl, decodeReq_encode (i := .readMeasurement) rfl,
    decodeReq_encode (i := .encCmd 0x1234#16) (by decide), decodeReq_encode (i := .encWord 0x1234#16) rfl,
    decodeReq_encode (i := .encArgs 0x1#4 0x2427#16) rfl, decodeReq_encode (i := .decFrame 0x3#4) rfl,
    ?reservedOp, ?reservedField, ?wordCount, ?wordField⟩
  case reservedOp => rw [decoderRejectsByName]; decide
  case reservedField => rw [decoderRejectsByName]; decide
  case wordCount => rw [decoderRejectsByName]; decide
  case wordField => rw [decoderRejectsByName]; decide

end Sys2Proof.Machine
end

section
/-! Proofs, family 30_encoding: the command codes and the frames of commands (R50 to R52, R60). -/

namespace Sys2Proof.Machine

theorem commandCodes_eq : commandCodes = Command.all.map Command.code := rfl

/-- The lookup finds exactly the codes that R52 lists. -/
theorem isCommandCode_iff (w : Word) : isCommandCode w = true ↔ w ∈ commandCodes := by
  simp [isCommandCode, Command.ofCode?, commandCodes_eq]

/-- ENC_CMD_ARGS with no argument words is ENC_CMD (R60): N = 0 is legal, and no element of ARG is read. -/
theorem execEncArgs_zero (w : Word) (s : State) : execEncArgs 0x0#4 w s = execEncCmd w s := by
  cases hw : isCommandCode w <;> simp [execEncArgs, execEncCmd, hw, State.argGroups]

/-- ENC_CMD_ARGS with a legal N refuses a code outside the table (R52, R116). -/
theorem execEncArgs_unlisted {n : BitVec 4} {w : Word} {s : State} (hn : n.toNat ≤ s.params.maxArgWords)
    (hw : isCommandCode w = false) : execEncArgs n w s = .next (s.raise .unknownCommand) :=
  (if_neg (Nat.not_lt.mpr hn)).trans (if_pos hw)

theorem execEncCmd_unlisted {w : Word} (hw : isCommandCode w = false) (s : State) :
    execEncCmd w s = .next (s.raise .unknownCommand) := if_neg (by simp [hw])

theorem execEncCmd_listed {w : Word} (hw : isCommandCode w = true) (s : State) :
    execEncCmd w s = .next (s.writeResult (.ok (be16Split w) [])) := if_pos hw

/-- Settles O46: no argument is read, and a listed code's `bareCommand` is its command's constructor. -/
theorem encArgsWithoutArgumentsIsEncCmd : Obligations.EncArgsWithoutArgumentsIsEncCmd := by
  refine ⟨execEncArgs_zero, fun c s => ?_⟩
  rw [← bareCommand_code, exec_bareCommand]
  rfl

/-- Settles O15: membership in R52's list is the model's lookup, on which ENC_CMD and ENC_CMD_ARGS branch. -/
theorem commandCodeSpace : Obligations.CommandCodeSpace := by
  refine ⟨rfl, by decide, isCommandCode_iff, fun w hw s => ?_, fun w hw s => ?_⟩
  · have hunlisted : isCommandCode w = false := by rwa [← Bool.not_eq_true, isCommandCode_iff]
    exact ⟨execEncCmd_unlisted hunlisted s, fun n hn => execEncArgs_unlisted hn hunlisted⟩
  · have hsend := execEncCmd_listed ((isCommandCode_iff w).mpr hw) s
    exact ⟨hsend, (execEncArgs_zero w s).trans hsend⟩

/-- Byte `k` of group `j` in a frame of word groups (R35, R53). -/
theorem wordGroups_getD {k : Nat} (hk : k < 3) : ∀ (ws : List Word) (j : Nat) (hj : j < ws.length),
    (ws.flatMap wordGroup).getD (3 * j + k) 0x00#8 = (wordGroup ws[j]).getD k 0x00#8 := by
  intro ws
  have hlen : ∀ a : Word, (wordGroup a).length = 3 := fun _ => rfl
  induction ws with
  | nil => intro j hj; simp at hj
  | cons a l ih =>
    intro j hj
    rw [List.flatMap_cons]
    cases j with
    | zero => rw [List.getD_append _ _ _ _ (by rw [hlen]; omega)]; simp
    | succ j =>
      rw [List.getD_append_right _ _ _ _ (by rw [hlen]; omega), hlen,
        show 3 * (j + 1) + k - 3 = 3 * j + k by omega]
      exact ih j (by simpa using hj)

/-- Byte `k` of group `j` in a command-with-arguments frame, after the two bytes of the code (R51). -/
theorem argumentFrame_getD (w : Word) {args : List Word} {j k : Nat} (hk : k < 3) (hj : j < args.length) :
    (be16Split w ++ args.flatMap wordGroup).getD (2 + (3 * j + k)) 0x00#8 = (wordGroup args[j]).getD k 0x00#8 := by
  have hcode : (be16Split w).length = 2 := rfl
  rw [List.getD_append_right _ _ _ _ (by omega), hcode, Nat.add_sub_cancel_left, wordGroups_getD hk args j hj]

/-- A completed ENC_CMD_ARGS with a legal N and a listed code has read its N arguments, and its result is the command's
bytes with one word group an argument (R51, R75). -/
theorem execEncArgs_next {n : BitVec 4} {w : Word} {s t : State} (hn : n.toNat ≤ s.params.maxArgWords)
    (hw : isCommandCode w = true) (h : execEncArgs n w s = .next t) :
    ∃ (c : Byte) (args : List Word), args.length = n.toNat ∧
      (∀ (j : Nat) (hj : j < args.length), s.argWord j = some args[j]) ∧
      t = State.writeResult { s with crc := c } (.ok (be16Split w ++ args.flatMap wordGroup) []) := by
  have hspec := execEncArgs_spec n w s hn hw
  cases hr : readArgs s.arg 0 n.toNat with
  | error e => simp [hr, h] at hspec
  | ok args =>
    simp only [hr] at hspec
    obtain ⟨c, hc⟩ := hspec
    cases h.symm.trans hc
    obtain ⟨hlen, hread⟩ := readArgs_ok _ _ _ hr
    exact ⟨c, args, hlen, fun j hj => by simpa [State.argWord] using hread j hj, rfl⟩

/-- Settles O31: the frame fits OUT, so OUT reads as the two code bytes and then the groups. -/
theorem argumentFrameLayout : Obligations.ArgumentFrameLayout := by
  intro s t n w hn hw h
  obtain ⟨c, args, hlen, hread, rfl⟩ := execEncArgs_next hn hw h
  have hsize : (be16Split w ++ args.flatMap wordGroup).length = 2 + 3 * n.toNat := by
    rw [List.length_append, wordGroups_length, hlen]; rfl
  have hbyte : ∀ i, (State.writeResult { s with crc := c } (.ok (be16Split w ++ args.flatMap wordGroup) [])).outByte i =
      (be16Split w ++ args.flatMap wordGroup).getD i 0x00#8 :=
    fillTo_getD (hsize ▸ Params.args_le_outCap hn)
  refine ⟨hsize, hbyte 0, hbyte 1, fun j hj => ?_⟩
  have hj : j < args.length := hlen ▸ hj
  have hgroup := fun k (hk : k < 3) => argumentFrame_getD w hk hj
  refine ⟨args[j], hread j hj, ?_, ?_, ?_⟩
  · exact (hbyte _).trans (hgroup 0 (by omega))
  · rw [hbyte, show 3 + 3 * j = 2 + (3 * j + 1) by omega, hgroup 1 (by omega)]; rfl
  · rw [hbyte, show 4 + 3 * j = 2 + (3 * j + 2) by omega, hgroup 2 (by omega)]; rfl

end Sys2Proof.Machine
end

section
/-! Proofs, family 30_encoding: the status a request ends with (R57, R111 to R116). -/

namespace Sys2Proof.Machine

variable {s : State} {r : Req}

theorem decodeReq_of_op_one (hm : ¬ MalformedReq r) (hop : opOf r = 1) : decodeReq r = .ok (bareCommand (wOf r)) := by
  simpa [hop] using decodeReq_of_not_malformed hm

theorem decodeReq_of_op_three (hm : ¬ MalformedReq r) (hop : opOf r = 3) :
    decodeReq r = .ok (.encArgs (reqN r) (wOf r)) := by
  simpa [hop] using decodeReq_of_not_malformed hm

theorem decodeReq_of_op_four (hm : ¬ MalformedReq r) (hop : opOf r = 4) : decodeReq r = .ok (.decFrame (reqN r)) := by
  simpa [hop] using decodeReq_of_not_malformed hm

theorem not_malformed_of_not_illegalReq {p : Params} (h : ¬ IllegalReq p r) : ¬ MalformedReq r := by
  unfold MalformedReq
  unfold IllegalReq at h
  tauto

/-- R112: an illegal encoding is refused by the decoder, or by the operation for its N. -/
theorem step_issue_of_illegalReq (h : IllegalReq s.params r) (rest : List HostAction) :
    step { s with host := .issue r :: rest } =
      .next (State.raise { s with host := rest, req := r } .illegalOperation) := by
  by_cases hm : MalformedReq r
  · obtain ⟨e, he⟩ := decodeReq_of_malformed hm
    exact step_issue_of_reject he s rest
  · rcases (illegalReq_iff hm).mp h with ⟨hop, hn⟩ | ⟨hop, hn⟩ <;> rw [← reqN_toNat] at hn
    · exact (step_issue_of_decode (decodeReq_of_op_three hm hop) s rest).trans (if_pos hn)
    · exact (step_issue_of_decode (decodeReq_of_op_four hm hop) s rest).trans (if_pos hn)

/-- R114: a command request's code is looked up when its encoding is legal. -/
theorem step_issue_of_unknownReq (hlegal : ¬ IllegalReq s.params r) (h : UnknownReq r) (rest : List HostAction) :
    step { s with host := .issue r :: rest } =
      .next (State.raise { s with host := rest, req := r } .unknownCommand) := by
  have hm := not_malformed_of_not_illegalReq hlegal
  obtain ⟨hop | hop, hw⟩ := h
  · rw [step_issue_of_decode (decodeReq_of_op_one hm hop), exec_bareCommand, execEncCmd_unlisted hw]
  · have hn : (reqN r).toNat ≤ s.params.maxArgWords := by
      rw [reqN_toNat]
      exact Nat.not_lt.mp fun hlt => hlegal ((illegalReq_iff hm).mpr (.inl ⟨hop, hlt⟩))
    exact (step_issue_of_decode (decodeReq_of_op_three hm hop) s rest).trans (execEncArgs_unlisted hn hw)

/-- R113, R116: the length is checked before any byte. -/
theorem step_issue_of_frameLength (hlegal : ¬ IllegalReq s.params r) (hop : opOf r = 4) (hlen : s.inLen ≠ 3 * nOf r)
    (rest : List HostAction) : step { s with host := .issue r :: rest } =
      .next (State.raise { s with host := rest, req := r } .frameLengthError) := by
  have hm := not_malformed_of_not_illegalReq hlegal
  have hn : ¬ s.params.maxRespWords < (reqN r).toNat := by
    rw [reqN_toNat]
    exact fun hlt => hlegal ((illegalReq_iff hm).mpr (.inr ⟨hop, hlt⟩))
  rw [← reqN_toNat] at hlen
  exact (step_issue_of_decode (decodeReq_of_op_four hm hop) s rest).trans ((if_neg hn).trans (if_pos hlen))

/-- The status of a result (R10, R19). -/
def Result.statusCode : Result → StatusCode
  | .ok _ _ => .ok
  | .err c => c

theorem State.writeResult_status (s : State) (res : Result) : (s.writeResult res).status = res.statusCode.code := by
  cases res <;> rfl

/-- R116: the first error that applies, in the order in which the block checks. -/
def requestStatus (p : Params) (inBuf : List Byte) (inLen : Nat) (r : Req) : StatusCode :=
  if IllegalReq p r then .illegalOperation
  else if UnknownReq r then .unknownCommand
  else if opOf r = 4 ∧ inLen ≠ 3 * nOf r then .frameLengthError
  else if opOf r = 4 ∧ decodeFrame inBuf (nOf r) = none then .checksumMismatch
  else .ok

section
variable {p : Params} {arg : List (Option Word)} {inBuf : List Byte} {inLen : Nat}

/-- The reference function reports the first error. -/
theorem reference_statusCode {res : Result} (h : reference p arg inBuf inLen r = .ok res) :
    res.statusCode = requestStatus p inBuf inLen r := by
  unfold reference at h
  unfold requestStatus
  split_ifs at h with hillegal hunknown h0 h1 h2 h3 hlen
  · cases h; rw [if_pos hillegal]; rfl
  · cases h; rw [if_neg hillegal, if_pos hunknown]; rfl
  all_goals rw [if_neg hillegal, if_neg hunknown]
  · cases h; simp [h0, Result.statusCode]
  · cases h; simp [h1, Result.statusCode]
  · cases h; simp [h2, Result.statusCode]
  · cases hr : readArgs arg 0 (nOf r) <;> simp only [hr] at h <;> cases h
    simp [h3, Result.statusCode]
  all_goals have hop : opOf r = 4 := by unfold IllegalReq at hillegal; omega
  · cases h; simp [hop, hlen, Result.statusCode]
  · cases hd : decodeFrame inBuf (nOf r) <;> simp only [hd] at h <;> cases h <;>
      simp [hop, not_not.mp hlen, Result.statusCode]

/-- DEC_FRAME excludes an unknown command: only OP 1 and 3 have a code. -/
theorem not_unknownReq_of_op_four (hop : opOf r = 4) : ¬ UnknownReq r := by
  unfold UnknownReq; omega

theorem requestStatus_illegalOperation_iff :
    requestStatus p inBuf inLen r = .illegalOperation ↔ IllegalReq p r := by
  unfold requestStatus
  split_ifs with hillegal
  · exact ⟨fun _ => hillegal, fun _ => rfl⟩
  all_goals exact ⟨nofun, fun h => absurd h hillegal⟩

theorem requestStatus_unknownCommand_iff :
    requestStatus p inBuf inLen r = .unknownCommand ↔ ¬ IllegalReq p r ∧ UnknownReq r := by
  unfold requestStatus
  split_ifs with hillegal hunknown
  · exact ⟨nofun, fun h => absurd hillegal h.1⟩
  · exact ⟨fun _ => ⟨hillegal, hunknown⟩, fun _ => rfl⟩
  all_goals exact ⟨nofun, fun h => absurd h.2 hunknown⟩

theorem requestStatus_frameLengthError_iff : requestStatus p inBuf inLen r = .frameLengthError ↔
    ¬ IllegalReq p r ∧ opOf r = 4 ∧ inLen ≠ 3 * nOf r := by
  unfold requestStatus
  split_ifs with hillegal hunknown hlen
  · exact ⟨nofun, fun h => absurd hillegal h.1⟩
  · exact ⟨nofun, fun h => absurd hunknown (not_unknownReq_of_op_four h.2.1)⟩
  · exact ⟨fun _ => ⟨hillegal, hlen⟩, fun _ => rfl⟩
  all_goals exact ⟨nofun, fun h => absurd h.2 hlen⟩

theorem requestStatus_checksumMismatch_iff : requestStatus p inBuf inLen r = .checksumMismatch ↔
    ¬ IllegalReq p r ∧ opOf r = 4 ∧ inLen = 3 * nOf r ∧ decodeFrame inBuf (nOf r) = none := by
  unfold requestStatus
  split_ifs with hillegal hunknown hlen hnone
  · exact ⟨nofun, fun h => absurd hillegal h.1⟩
  · exact ⟨nofun, fun h => absurd hunknown (not_unknownReq_of_op_four h.2.1)⟩
  · exact ⟨nofun, fun h => absurd h.2.2.1 hlen.2⟩
  · exact ⟨fun _ => ⟨hillegal, hnone.1, by_contra fun hne => hlen ⟨hnone.1, hne⟩, hnone.2⟩, fun _ => rfl⟩
  · exact ⟨nofun, fun h => absurd ⟨h.2.1, h.2.2.2⟩ hnone⟩

end

theorem StatusCode.code_inj {c d : StatusCode} : c.code = d.code ↔ c = d := by
  cases c <;> cases d <;> decide

/-- A frame does not decode exactly when some group's CRC byte differs from its word's CRC (R71, R117). -/
theorem decodeFrame_eq_none_iff (s : State) (n : Nat) : decodeFrame s.inBuf n = none ↔
    ∃ i, i < n ∧ crc8 (be16Join (s.inByte (3 * i)) (s.inByte (3 * i + 1))) ≠ s.inByte (3 * i + 2) := by
  have hgroup : ∀ i, groupAt s.inBuf i = none ↔
      crc8 (be16Join (s.inByte (3 * i)) (s.inByte (3 * i + 1))) ≠ s.inByte (3 * i + 2) := by
    intro i; simp [groupAt, checkGroup, State.inByte]
  simp only [← hgroup]
  refine ⟨fun hnone => ?_, fun ⟨i, hi, h⟩ => decodeFrame_eq_none hi h⟩
  rcases decodeFrame_cases s.inBuf n with ⟨i, hi, h, -⟩ | ⟨ws, -, -, hsome⟩
  · exact ⟨i, hi, h⟩
  · cases hsome.symm.trans hnone

theorem State.answers_of_reference {res : Result} (h : reference s.params s.arg s.inBuf s.inLen r = .ok res) :
    s.Answers r res := by
  have hs := blockIsTheSourceFunctions s r
  rw [h] at hs
  exact hs

/-- R115: a group that does not match fails the whole frame. -/
theorem answers_checksumMismatch (hlegal : ¬ IllegalReq s.params r) (hop : opOf r = 4) (hlen : s.inLen = 3 * nOf r)
    (hnone : decodeFrame s.inBuf (nOf r) = none) : s.Answers r (.err .checksumMismatch) := by
  have hm := not_malformed_of_not_illegalReq hlegal
  have hn : ¬ s.params.maxRespWords < nOf r := fun hlt => hlegal ((illegalReq_iff hm).mpr (.inr ⟨hop, hlt⟩))
  refine State.answers_of_reference ((reference_decFrame hm hop).trans ?_)
  simp [decFrameResult, hn, hlen, hnone]

/-- The status after a completed request is that of the first error. -/
theorem step_issue_status {t : State} {rest : List HostAction}
    (h : step { s with host := .issue r :: rest } = .next t) :
    t.status = (requestStatus s.params s.inBuf s.inLen r).code := by
  obtain ⟨c, res, href, rfl⟩ := step_issue_next h
  rw [State.writeResult_status, reference_statusCode href]

/-- Settles O22: each error by the block's own checks, and the status by the order of the errors in `requestStatus`. -/
theorem requestsEndWithTheFirstError : Obligations.RequestsEndWithTheFirstError := by
  intro s r
  refine ⟨step_issue_of_illegalReq, step_issue_of_unknownReq, step_issue_of_frameLength,
    fun hlegal hop hlen hgroup =>
      answers_checksumMismatch hlegal hop hlen ((decodeFrame_eq_none_iff s _).mpr hgroup),
    fun rest t h => ?_⟩
  have hcode : ∀ c : StatusCode, t.status = c.code ↔ requestStatus s.params s.inBuf s.inLen r = c := by
    intro c; rw [step_issue_status h, StatusCode.code_inj]
  refine ⟨(hcode .illegalOperation).trans requestStatus_illegalOperation_iff,
    (hcode .unknownCommand).trans requestStatus_unknownCommand_iff,
    (hcode .frameLengthError).trans requestStatus_frameLengthError_iff, ?_, ?_⟩
  · rw [← decodeFrame_eq_none_iff]
    exact (hcode .checksumMismatch).trans requestStatus_checksumMismatch_iff
  · rw [step_issue_status h]
    exact StatusCode.code_toNat_le _

end Sys2Proof.Machine
end

section
/-! Proofs, family 40_crc8: the shift of the CRC register and the step as numbers and as a table (R63, R64, R66). -/

namespace Sys2Proof.Machine

/-- One shift as a number: the bit shifted out of position 7 is worth 256 (R63). -/
theorem crcShift_toNat (c : Byte) : (crcShift c).toNat =
    if 128 ≤ c.toNat then (2 * c.toNat - 256) ^^^ 0x31 else 2 * c.toNat := by
  have hlt := c.isLt
  have htop : c.getLsbD 7 = decide (128 ≤ c.toNat) :=
    (BitVec.msb_eq_getLsbD_last c).symm.trans (BitVec.msb_eq_decide c)
  have hshift : (c <<< 1).toNat = 2 * c.toNat % 256 := by
    rw [BitVec.toNat_shiftLeft, Nat.shiftLeft_eq, Nat.mul_comm, pow_one]
  unfold crcShift
  by_cases h : 128 ≤ c.toNat
  · rw [htop, if_pos (decide_eq_true h), if_pos h, BitVec.toNat_xor, hshift,
      show 2 * c.toNat % 256 = 2 * c.toNat - 256 by omega]
    rfl
  · rw [htop, if_neg (by simpa using h), if_neg h, hshift, Nat.mod_eq_of_lt (by omega)]

theorem crcShifts_zero (n : Nat) : crcShifts n 0x00#8 = 0x00#8 := by
  induction n with
  | zero => rfl
  | succ n ih => exact ih

theorem crcStep_self (c : Byte) : crcStep c c = 0x00#8 := by
  rw [crcStep, BitVec.xor_self]
  exact crcShifts_zero 8

/-- The step depends on the XOR of the register and the byte alone (R66). -/
theorem crcStep_eq_crcStep_zero (c b : Byte) : crcStep c b = crcStep 0x00#8 (c ^^^ b) := by
  simp [crcStep]

theorem crc8_eq (w : Word) : crc8 w = crcStep (crcStep 0xFF#8 (hiByte w)) (loByte w) := crcXorOut_xor _

theorem hiByte_eq_ofNat (w : Word) : hiByte w = BitVec.ofNat 8 (w.toNat / 256) := by
  rw [hiByte, BitVec.extractLsb', Nat.shiftRight_eq_div_pow]

theorem loByte_eq_ofNat (w : Word) : loByte w = BitVec.ofNat 8 (w.toNat % 256) := by
  apply BitVec.eq_of_toNat_eq
  simp [loByte]

/-- Settles O2: a shift by its value as a number; equal register and byte leave zero, which every shift keeps. -/
theorem crcStepIsEightShifts : Obligations.CrcStepIsEightShifts :=
  ⟨crcShift_toNat, fun _ _ => rfl, crcStep_self 0x00#8, crcStep_self, by set_option maxRecDepth 20000 in decide⟩

/-- Settles O3: the two bytes of a word are the quotient and the remainder by 256. -/
theorem crcOfAWord : Obligations.CrcOfAWord := by
  refine ⟨fun w => ?_, by set_option maxRecDepth 20000 in decide⟩
  rw [crc8_eq, hiByte_eq_ofNat, loByte_eq_ofNat]

set_option maxRecDepth 20000 in
/-- R65's corner cases: four words, and the groups of zeros and of ones, which fail. -/
theorem crc8_cornerCases : crc8 0x0000#16 = 0x81#8 ∧ crc8 0xFFFF#16 = 0xAC#8 ∧ crc8 0xFF00#16 = 0x00#8 ∧
    crc8 0x0050#16 = 0xFF#8 ∧ checkGroup 0x00#8 0x00#8 0x00#8 = none ∧ checkGroup 0xFF#8 0xFF#8 0xFF#8 = none := by
  decide

set_option maxRecDepth 20000 in
/-- The published table, compared entry by entry with the step (95_test_vectors.md V1). -/
theorem crcLookup_eq (x : Byte) : crcLookup x = crcStep 0x00#8 x := by
  decide +revert

theorem crcStep_eq_crcLookup (c b : Byte) : crcStep c b = crcLookup (c ^^^ b) := by
  rw [crcStep_eq_crcStep_zero, crcLookup_eq]

/-- Settles O5: the step depends on `c ^^^ b` alone, and the table lists its values. -/
theorem crcStepIsTableLookup : Obligations.CrcStepIsTableLookup := by
  refine ⟨crcLookup_eq, by set_option maxRecDepth 20000 in decide, crcStep_eq_crcLookup, fun w => ?_⟩
  rw [crc8_eq, crcStep_eq_crcLookup, crcStep_eq_crcLookup]

end Sys2Proof.Machine
end

section
/-! Proofs, family 40_crc8: the step is linear and, in each argument, one to one (R67, R68); what follows for one group. -/

namespace Sys2Proof.Machine

/-- The feedback as a mask over the shifted register: the polynomial, or nothing. -/
theorem crcShift_eq (c : Byte) : crcShift c = (c <<< 1) ^^^ (if c.getLsbD 7 then crcPoly else 0x00#8) := by
  unfold crcShift
  split
  · rfl
  · exact BitVec.xor_zero.symm

theorem crcShift_xor (a b : Byte) : crcShift (a ^^^ b) = crcShift a ^^^ crcShift b := by
  have hmask : ∀ x y : Bool, (if (x ^^ y) then crcPoly else 0x00#8) =
      (if x then crcPoly else 0x00#8) ^^^ (if y then crcPoly else 0x00#8) := by decide
  rw [crcShift_eq, crcShift_eq, crcShift_eq, BitVec.getLsbD_xor, BitVec.shiftLeft_xor_distrib, hmask]
  ac_rfl

/-- No shift loses a byte: the polynomial is odd, and the register shifted left is even. -/
theorem crcShift_eq_zero {c : Byte} (h : crcShift c = 0x00#8) : c = 0x00#8 := by
  have hnat := crcShift_toNat c
  rw [h, BitVec.toNat_ofNat] at hnat
  split at hnat
  · have : 2 * c.toNat - 256 = 0x31 := Nat.xor_eq_zero_iff.mp hnat.symm
    omega
  · exact BitVec.eq_of_toNat_eq (by simpa using hnat)

theorem crcShifts_xor (n : Nat) : ∀ a b : Byte, crcShifts n (a ^^^ b) = crcShifts n a ^^^ crcShifts n b := by
  induction n with
  | zero => intro a b; rfl
  | succ n ih => intro a b; simp only [crcShifts, crcShift_xor, ih]

theorem crcShifts_eq_zero {n : Nat} : ∀ {c : Byte}, crcShifts n c = 0x00#8 → c = 0x00#8 := by
  induction n with
  | zero => intro c h; exact h
  | succ n ih => intro c h; exact crcShift_eq_zero (ih h)

/-- The step is linear over XOR (R68). -/
theorem crcStep_xor (a b c d : Byte) : crcStep (a ^^^ b) (c ^^^ d) = crcStep a c ^^^ crcStep b d := by
  rw [crcStep, crcStep, crcStep, ← crcShifts_xor]
  congr 1
  ac_rfl

theorem crcStep_eq_zero_iff {c b : Byte} : crcStep c b = 0x00#8 ↔ c = b :=
  ⟨fun h => BitVec.xor_eq_zero_iff.mp (crcShifts_eq_zero h), fun h => h ▸ crcStep_self c⟩

/-- Equal steps have equal differences. -/
theorem crcStep_eq_crcStep_iff {a b c d : Byte} : crcStep a c = crcStep b d ↔ a ^^^ b = c ^^^ d := by
  rw [← BitVec.xor_eq_zero_iff, ← crcStep_xor, crcStep_eq_zero_iff]

theorem crcStep_left_inj {a b c : Byte} : crcStep a c = crcStep b c ↔ a = b := by
  rw [crcStep_eq_crcStep_iff, BitVec.xor_self, BitVec.xor_eq_zero_iff]

theorem crcStep_right_inj {c a b : Byte} : crcStep c a = crcStep c b ↔ a = b := by
  rw [crcStep_eq_crcStep_iff, BitVec.xor_self, eq_comm, BitVec.xor_eq_zero_iff]

theorem hiByte_xor (a b : Word) : hiByte (a ^^^ b) = hiByte a ^^^ hiByte b := BitVec.extractLsb'_xor
theorem loByte_xor (a b : Word) : loByte (a ^^^ b) = loByte a ^^^ loByte b := BitVec.extractLsb'_xor

/-- R67(a): three runs from the initial value, of which two cancel. -/
theorem crc8_xor (a b : Word) : crc8 (a ^^^ b) = crc8 a ^^^ crc8 b ^^^ crc8 0x0000#16 := by
  have hinit : (0xFF#8 : Byte) = 0xFF#8 ^^^ 0xFF#8 ^^^ 0xFF#8 := by decide
  have hword : a ^^^ b = a ^^^ b ^^^ 0x0000#16 := by simp
  rw [hword]
  simp only [crc8_eq, hiByte_xor, loByte_xor, ← crcStep_xor]
  rw [← hinit]

/-- The two bytes of a joined word, side by side. -/
theorem be16Join_eq_append (hi lo : Byte) : be16Join hi lo = hi ++ lo := by
  rw [be16Join, BitVec.append_def, BitVec.shiftLeftZeroExtend_eq, BitVec.setWidth'_eq]

@[simp] theorem hiByte_be16Join (hi lo : Byte) : hiByte (be16Join hi lo) = hi := by
  rw [be16Join_eq_append]
  exact BitVec.extractLsb'_append_eq_left

@[simp] theorem loByte_be16Join (hi lo : Byte) : loByte (be16Join hi lo) = lo := by
  rw [be16Join_eq_append]
  exact BitVec.extractLsb'_append_eq_right

@[simp] theorem be16Join_hiByte_loByte (w : Word) : be16Join (hiByte w) (loByte w) = w := by
  rw [be16Join_eq_append]
  exact (BitVec.extractLsb'_append_extractLsb'_eq_extractLsb' rfl).trans BitVec.extractLsb'_eq_self

theorem crc8_be16Join (hi lo : Byte) : crc8 (be16Join hi lo) = crcStep (crcStep 0xFF#8 hi) lo := by
  rw [crc8_eq, hiByte_be16Join, loByte_be16Join]

/-- R71 over the bytes: a group is refused when its CRC byte is not the CRC of the two before it. -/
theorem checkGroup_eq_none_iff {b0 b1 b2 : Byte} :
    checkGroup b0 b1 b2 = none ↔ crcStep (crcStep 0xFF#8 b0) b1 ≠ b2 := by
  simp [checkGroup, crc8_be16Join]

/-- R67(b): the residue of a group is zero when the group is accepted, and only then. -/
theorem crcStep_group_eq_zero_iff (b0 b1 b2 : Byte) :
    crcStep (crcStep (crcStep 0xFF#8 b0) b1) b2 = 0x00#8 ↔ checkGroup b0 b1 b2 = some (be16Join b0 b1) := by
  simp [crcStep_eq_zero_iff, checkGroup, crc8_be16Join]

/-- R67(c): the step is one to one in the register and in the byte, so a change of any one byte of a good group changes
one side of the check alone. -/
theorem groupAt_wordGroup_set {w : Word} {k : Nat} {b : Byte} (hk : k < 3) (hb : b ≠ (wordGroup w).getD k 0x00#8) :
    groupAt ((wordGroup w).set k b) 0 = none := by
  have hgroup : wordGroup w = [hiByte w, loByte w, crc8 w] := rfl
  rw [hgroup] at hb ⊢
  refine checkGroup_eq_none_iff.mpr ?_
  match k, hk with
  | 0, _ => exact fun h => hb (crcStep_right_inj.mp (crcStep_left_inj.mp (h.trans (crc8_eq w))))
  | 1, _ => exact fun h => hb (crcStep_right_inj.mp (h.trans (crc8_eq w)))
  | 2, _ => exact fun h => hb (h.symm.trans (crc8_eq w).symm)

/-- Settles O6: linearity gives the affine law, and the step's being one to one the error detection. -/
theorem crcAlgebraicLaws : Obligations.CrcAlgebraicLaws := by
  refine ⟨crc8_xor, crc8_cornerCases.1, fun w => ?_, crcStep_group_eq_zero_iff,
    fun _ _ _ => groupAt_wordGroup_set, by set_option maxRecDepth 20000 in decide⟩
  rw [← crc8_eq, crcStep_self]

end Sys2Proof.Machine
end

section
/-! Proofs, family 40_crc8: the CRC8 operation (R65), ENC_WORD beside it (R74), and how many words have each CRC value. -/

namespace Sys2Proof.Machine

theorem crc8_be16Join_bijective (hi : Byte) : Function.Bijective fun lo : Byte => crc8 (be16Join hi lo) := by
  refine Finite.injective_iff_bijective.mp fun a b h => ?_
  simpa only [crc8_be16Join, crcStep_right_inj] using h

/-- Each high byte has exactly one low byte for a given CRC value, so there are as many words as high bytes. -/
theorem ncard_crc8_eq (v : Byte) : Set.ncard (fun w : Word => crc8 w = v) = 256 := by
  choose lo hlo using fun hi => (crc8_be16Join_bijective hi).surjective v
  have hset : (fun w : Word => crc8 w = v) = Set.range fun hi => be16Join hi (lo hi) := by
    ext w
    constructor
    · intro (hw : crc8 w = v)
      refine ⟨hiByte w, ?_⟩
      have : lo (hiByte w) = loByte w := (crc8_be16Join_bijective (hiByte w)).injective
        ((hlo (hiByte w)).trans (by simpa using hw.symm))
      simp [this]
    · rintro ⟨hi, rfl⟩
      exact hlo hi
  have hinj : Function.Injective fun hi => be16Join hi (lo hi) := fun a b h => by
    simpa using congrArg hiByte h
  rw [hset, Set.ncard_range_of_injective hinj]
  exact (Nat.card_congr BitVec.equivFin.toEquiv).trans (Nat.card_fin _)

/-- R65 as a request: the decoder checks RSV and N, and every word is legal. -/
theorem answers_crc8 (s : State) {r : Req} (hop : opOf r = 0) (hrsv : rsvOf r = 0) (hn : nOf r = 0) :
    s.Answers r (.ok [crc8 (wOf r)] []) := by
  have hm : ¬ MalformedReq r := by simp [MalformedReq, hop, hrsv, hn]
  exact State.answers_of_reference (reference_crc8 hm hop)

/-- Settles O9: by the two ways the decoder can read OP 0, and by the step's being one to one in the low byte. -/
theorem crc8Request : Obligations.Crc8Request := by
  obtain ⟨h0000, hFFFF, hFF00, h0050, hzeros, hones⟩ := crc8_cornerCases
  refine ⟨fun s r hop => ⟨fun h => ?_, answers_crc8 s hop⟩, h0000, hFFFF, hFF00, h0050, hzeros, hones,
    crc8_be16Join_bijective, ncard_crc8_eq, by set_option maxRecDepth 20000 in decide⟩
  have hm : MalformedReq r := by unfold MalformedReq; omega
  exact State.answers_of_reference (reference_of_malformed hm)

/-- Settles O16: both results fit OUT, which holds at least three bytes. -/
theorem wordOperationsComplete : Obligations.WordOperationsComplete := by
  intro s w
  have hcap := Params.three_le_outCap s.params
  have hcrc : [crc8 w].length ≤ s.params.outCap := by simp; omega
  have hgroup : (wordGroup w).length ≤ s.params.outCap := hcap
  refine ⟨(execCrc8_eq w s).trans ?_, (execEncWord_eq w s).trans ?_⟩
  · simp only [State.writeResult, fillTo_of_le hcrc, fillTo_nil]
    rfl
  · simp only [State.writeResult, fillTo_of_le hgroup, fillTo_nil]
    rfl

end Sys2Proof.Machine
end

section
/-! Proofs, family 40_crc8: one corrupted byte in a whole frame (R67(c), R76). -/

namespace Sys2Proof.Machine

theorem getD_set {α : Type} {l : List α} {i : Nat} (hi : i < l.length) (k : Nat) (b z : α) :
    (l.set k b).getD i z = if k = i then b else l.getD i z := by
  rw [List.getD_eq_getElem _ _ (by rwa [List.length_set]), List.getD_eq_getElem _ _ hi, List.getElem_set]

/-- A byte changed in group `j` of a frame of word groups is a byte changed in the group of word `j`, whatever stands
after the frame. -/
theorem groupAt_wordGroups_set {ws : List Word} {j : Nat} (hj : j < ws.length) (k : Nat) (b : Byte)
    (tail : List Byte) : groupAt ((ws.flatMap wordGroup).set (3 * j + k) b ++ tail) j =
      groupAt ((wordGroup ws[j]).set k b) 0 := by
  have hbyte : ∀ i, i < 3 → ((ws.flatMap wordGroup).set (3 * j + k) b ++ tail).getD (3 * j + i) 0x00#8 =
      ((wordGroup ws[j]).set k b).getD i 0x00#8 := by
    intro i hi
    have hframe : 3 * j + i < (ws.flatMap wordGroup).length := by rw [wordGroups_length]; omega
    have hgroup : i < (wordGroup ws[j]).length := hi
    rw [List.getD_append _ _ _ _ (by rwa [List.length_set]), getD_set hframe, getD_set hgroup,
      wordGroups_getD hi ws j hj]
    simp only [Nat.add_left_cancel_iff]
  have h0 := hbyte 0 (by omega)
  have h1 := hbyte 1 (by omega)
  have h2 := hbyte 2 (by omega)
  rw [Nat.add_zero] at h0
  rw [groupAt, h0, h1, h2]
  rfl

/-- Settles O30: the group that holds the corrupted byte fails its check, and so does the frame. -/
theorem singleByteCorruptionIsDetected : Obligations.SingleByteCorruptionIsDetected := by
  intro s n ws tail k b hws hn hk hb hbuf hlen
  obtain ⟨c, hc⟩ := execDecFrame_spec n s hn hlen
  have hj : k / 3 < ws.length := by omega
  have hr : k % 3 < 3 := Nat.mod_lt _ (by omega)
  rw [← Nat.div_add_mod k 3] at hb hbuf
  rw [wordGroups_getD hr ws (k / 3) hj] at hb
  have hgroup : groupAt s.inBuf (k / 3) = none := by
    rw [hbuf, groupAt_wordGroups_set hj]
    exact groupAt_wordGroup_set hr hb
  rw [decodeFrame_eq_none (hws ▸ hj) hgroup] at hc
  exact ⟨c, hc⟩

end Sys2Proof.Machine
end

section
/-! Proofs, family 41_word_codec: the byte split and join, and one word group (R69 to R72). -/

namespace Sys2Proof.Machine

theorem be16Split_eq_ofNat (w : Word) :
    be16Split w = [BitVec.ofNat 8 (w.toNat / 256), BitVec.ofNat 8 (w.toNat % 256)] := by
  rw [be16Split, hiByte_eq_ofNat, loByte_eq_ofNat]

theorem be16Join_toNat (hi lo : Byte) : (be16Join hi lo).toNat = 256 * hi.toNat + lo.toNat := by
  rw [be16Join_eq_append, BitVec.toNat_append, ← Nat.shiftLeft_add_eq_or_of_lt lo.isLt, Nat.shiftLeft_eq, Nat.mul_comm]

theorem be16Split_be16Join (hi lo : Byte) : be16Split (be16Join hi lo) = [hi, lo] := by
  rw [be16Split, hiByte_be16Join, loByte_be16Join]

/-- Settles O7: a joined word is its two bytes side by side. -/
theorem byteSplitAndJoinAreInverse : Obligations.ByteSplitAndJoinAreInverse :=
  ⟨be16Split_eq_ofNat, be16Join_toNat, be16Join_hiByte_loByte, be16Split_be16Join, by decide⟩

/-- A word's own group is accepted with the word (R72). -/
theorem checkGroup_wordGroup (w : Word) : checkGroup (hiByte w) (loByte w) (crc8 w) = some w := by
  rw [checkGroup, be16Join_hiByte_loByte, if_pos rfl]

/-- Settles O8: the check joins the bytes and compares the CRC, and joining undoes the split. -/
theorem groupIsAcceptedExactlyOnEqualCrc : Obligations.GroupIsAcceptedExactlyOnEqualCrc :=
  ⟨fun _ _ _ => rfl, fun w => ⟨rfl, checkGroup_wordGroup w⟩, by set_option maxRecDepth 20000 in decide⟩

end Sys2Proof.Machine
end

section
/-! Proofs, family 41_word_codec: the next state of ENC_CMD, ENC_CMD_ARGS and DEC_FRAME, given whole (R73, R75, R76). -/

namespace Sys2Proof.Machine

/-- The state after a successful result that the buffers have room for (R21). -/
theorem State.writeResult_ok_eq {s : State} {bytes : List Byte} {ws : List Word}
    (hbytes : bytes.length ≤ s.params.outCap) (hws : ws.length ≤ s.params.maxRespWords) :
    s.writeResult (.ok bytes ws) =
      { s with
        out := bytes ++ List.replicate (s.params.outCap - bytes.length) 0x00#8, outLen := bytes.length
        words := ws ++ List.replicate (s.params.maxRespWords - ws.length) 0x0000#16
        wcount := ws.length, status := 0x0#4 } := by
  simp only [State.writeResult, fillTo_of_le hbytes, fillTo_of_le hws]
  rfl

/-- The state after an error (R21, R118). -/
theorem State.writeResult_err_eq (s : State) (c : StatusCode) : s.writeResult (.err c) =
    { s with
      out := List.replicate s.params.outCap 0x00#8, outLen := 0
      words := List.replicate s.params.maxRespWords 0x0000#16, wcount := 0, status := c.code } := by
  simp only [State.writeResult, fillTo_nil]

/-- Settles O17: a code's two bytes fit OUT. -/
theorem encCmdCompletes : Obligations.EncCmdCompletes := by
  intro s w
  have hfits : (be16Split w).length ≤ s.params.outCap := (Nat.le_succ 2).trans (Params.three_le_outCap s.params)
  refine ⟨fun hw => (execEncCmd_listed hw s).trans ?_, fun hw => (execEncCmd_unlisted hw s).trans ?_⟩
  · rw [State.writeResult_ok_eq hfits (Nat.zero_le _)]
    rfl
  · rw [State.raise_eq, State.writeResult_err_eq]
    rfl

/-- The arguments from index `j` on, all of them written, run through the CRC register as word groups (R22, R75). -/
theorem State.argGroups_of_written (args : List Word) : ∀ (s : State) (j : Nat),
    (∀ (i : Nat) (hi : i < args.length), s.argWord (j + i) = some args[i]) →
    s.argGroups j args.length = .ok (args.flatMap wordGroup, { s with crc := crcAfter s.crc args }) := by
  induction args with
  | nil => intro s j _; rfl
  | cons a args ih =>
    intro s j h
    have ha : s.argWord j = some a := h 0 (Nat.zero_lt_succ _)
    have hrest := ih (s.crcWord a) (j + 1) fun i hi => by
      rw [State.crcWord_argWord, Nat.add_right_comm]
      exact h (i + 1) (Nat.succ_lt_succ hi)
    simp only [List.length_cons, State.argGroups, ha, hrest, State.crcWord_crc, State.crcWord_crcByte]
    rfl

/-- What ENC_CMD_ARGS answers when its arguments are written (R75). -/
theorem execEncArgs_of_written {n : BitVec 4} {w : Word} {s : State} {args : List Word}
    (hn : n.toNat ≤ s.params.maxArgWords) (hw : isCommandCode w = true) (hlen : args.length = n.toNat)
    (hargs : ∀ (j : Nat) (hj : j < args.length), s.argWord j = some args[j]) :
    execEncArgs n w s = .next (State.writeResult { s with crc := crcAfter s.crc args }
      (.ok (be16Split w ++ args.flatMap wordGroup) [])) := by
  have hgroups := State.argGroups_of_written args s 0 fun i hi => by rw [Nat.zero_add]; exact hargs i hi
  rw [hlen] at hgroups
  simp [execEncArgs, Nat.not_lt.mpr hn, hw, hgroups]

/-- The CRC register keeps the CRC of the last word that ran through it (R22). -/
theorem crcAfter_eq_getLast (c : Byte) (ws : List Word) : crcAfter c ws = (ws.getLast?.map crc8).getD c := by
  rcases List.eq_nil_or_concat ws with rfl | ⟨init, w, rfl⟩
  · rfl
  · simp [crcAfter]

/-- Settles O18: the code and `n` word groups fit OUT when `n` is legal. -/
theorem encArgsCompletes : Obligations.EncArgsCompletes := by
  intro s n w args hn hw hlen hargs
  have hsize : (be16Split w ++ args.flatMap wordGroup).length = 2 + 3 * n.toNat := by
    rw [List.length_append, wordGroups_length, hlen]; rfl
  have hfits : (be16Split w ++ args.flatMap wordGroup).length ≤ s.params.outCap :=
    hsize ▸ Params.args_le_outCap hn
  refine (execEncArgs_of_written hn hw hlen hargs).trans ?_
  rw [← hsize, ← crcAfter_eq_getLast]
  exact congrArg _ (State.writeResult_ok_eq hfits (Nat.zero_le _))

/-- Settles O19: the checks in the order of R116, then the words of the frame or the first mismatch. -/
theorem decFrameCompletes : Obligations.DecFrameCompletes := by
  intro s n
  refine ⟨fun hn => if_pos hn, fun hn hl => (if_neg (Nat.not_lt.mpr hn)).trans (if_pos hl), fun hn hl => ?_⟩
  obtain ⟨c, hc⟩ := execDecFrame_spec n s hn hl
  refine ⟨fun ws hlen hgroups => ⟨c, hc.trans ?_⟩, fun i hi hgroup => ⟨c, hc.trans ?_⟩⟩
  · rw [decodeFrame_eq_some hlen hgroups, ← hlen]
    rw [← hlen] at hn
    exact congrArg _ (State.writeResult_ok_eq (Nat.zero_le _) hn)
  · rw [decodeFrame_eq_none hi hgroup]
    exact congrArg _ (State.writeResult_err_eq _ _)

end Sys2Proof.Machine
end

section
/-! Proofs, family 41_word_codec: the operations as requests (R73 to R76, R116). -/

namespace Sys2Proof.Machine

variable {s : State} {r : Req}

theorem answers_illegalOperation (h : IllegalReq s.params r) : s.Answers r (.err .illegalOperation) :=
  fun rest => ⟨s.crc, step_issue_of_illegalReq h rest⟩

theorem answers_unknownCommand (hlegal : ¬ IllegalReq s.params r) (h : UnknownReq r) :
    s.Answers r (.err .unknownCommand) :=
  fun rest => ⟨s.crc, step_issue_of_unknownReq hlegal h rest⟩

theorem answers_frameLengthError (hlegal : ¬ IllegalReq s.params r) (hop : opOf r = 4)
    (hlen : s.inLen ≠ 3 * nOf r) : s.Answers r (.err .frameLengthError) :=
  fun rest => ⟨s.crc, step_issue_of_frameLength hlegal hop hlen rest⟩

/-- R73 as a request for a listed code. -/
theorem answers_encCmd (s : State) (hop : opOf r = 1) (hrsv : rsvOf r = 0) (hn : nOf r = 0)
    (hw : isCommandCode (wOf r) = true) : s.Answers r (.ok (be16Split (wOf r)) []) := by
  have hm : ¬ MalformedReq r := by simp [MalformedReq, hop, hrsv, hn]
  exact State.answers_of_reference ((reference_encCmd hm hop).trans (if_pos hw))

/-- Settles O10: by the order of the errors (R116); the examples are listed codes. -/
theorem encCmdRequest : Obligations.EncCmdRequest := by
  refine ⟨fun s r hop => ⟨fun h => ?_, fun hrsv hn hw => ?_, answers_encCmd s hop⟩, fun s => ?_, fun s => ?_⟩
  · exact answers_illegalOperation (by unfold IllegalReq; omega)
  · exact answers_unknownCommand (by unfold IllegalReq; omega) ⟨.inl hop, hw⟩
  · exact answers_encCmd s (r := 0x1000EC05#32) rfl rfl rfl (by decide)
  · exact answers_encCmd s (r := 0x1000E000#32) rfl rfl rfl (by decide)

/-- R74 as a request. -/
theorem answers_encWord (s : State) (hop : opOf r = 2) (hrsv : rsvOf r = 0) (hn : nOf r = 0) :
    s.Answers r (.ok (wordGroup (wOf r)) []) := by
  have hm : ¬ MalformedReq r := by simp [MalformedReq, hop, hrsv, hn]
  exact State.answers_of_reference (reference_encWord hm hop)

set_option maxRecDepth 20000 in
/-- The word groups of R74's corner cases and worked example. -/
theorem wordGroup_cornerCases :
    wordGroup 0x0000#16 = [0x00#8, 0x00#8, 0x81#8] ∧ wordGroup 0xFFFF#16 = [0xFF#8, 0xFF#8, 0xAC#8] ∧
    wordGroup 0xFF00#16 = [0xFF#8, 0x00#8, 0x00#8] ∧ wordGroup 0xBEEF#16 = [0xBE#8, 0xEF#8, 0x92#8] := by
  decide

/-- Settles O11: by the two ways the decoder can read OP 2. -/
theorem encWordRequest : Obligations.EncWordRequest := by
  obtain ⟨h0000, hFFFF, hFF00, hBEEF⟩ := wordGroup_cornerCases
  refine ⟨fun s r hop => ⟨fun h => ?_, answers_encWord s hop⟩, fun s => ⟨?_, ?_, ?_, ?_⟩⟩
  · exact answers_illegalOperation (by unfold IllegalReq; omega)
  · exact h0000 ▸ answers_encWord s (r := 0x20000000#32) rfl rfl rfl
  · exact hFFFF ▸ answers_encWord s (r := 0x2000FFFF#32) rfl rfl rfl
  · exact hFF00 ▸ answers_encWord s (r := 0x2000FF00#32) rfl rfl rfl
  · exact hBEEF ▸ answers_encWord s (r := 0x2000BEEF#32) rfl rfl rfl

/-- The legal encodings of ENC_CMD_ARGS (R75). -/
theorem not_illegalReq_of_op_three {p : Params} (hop : opOf r = 3) (hrsv : rsvOf r = 0)
    (hn : nOf r ≤ p.maxArgWords) : ¬ IllegalReq p r := by
  unfold IllegalReq; omega

/-- R75 as a request for a listed code and written arguments. -/
theorem answers_encArgs {args : List Word} (hop : opOf r = 3) (hrsv : rsvOf r = 0)
    (hn : nOf r ≤ s.params.maxArgWords) (hw : isCommandCode (wOf r) = true) (hlen : args.length = nOf r)
    (hargs : ∀ (j : Nat) (hj : j < args.length), s.argWord j = some args[j]) :
    s.Answers r (.ok (be16Split (wOf r) ++ args.flatMap wordGroup) []) := by
  intro rest
  have hm := not_malformed_of_not_illegalReq (not_illegalReq_of_op_three hop hrsv hn)
  rw [step_issue_of_decode (decodeReq_of_op_three hm hop)]
  rw [← reqN_toNat] at hn hlen
  exact ⟨_, execEncArgs_of_written (s := { s with host := rest, req := r }) hn hw hlen hargs⟩

/-- R15: the first argument that was never written stops the run. -/
theorem step_issue_argNotWritten {j : Nat} (hop : opOf r = 3) (hrsv : rsvOf r = 0)
    (hn : nOf r ≤ s.params.maxArgWords) (hw : isCommandCode (wOf r) = true) (hj : j < nOf r)
    (hnone : s.argWord j = none) (hfirst : ∀ i, i < j → s.argWord i ≠ none) (rest : List HostAction) :
    step { s with host := .issue r :: rest } = .fault (.argNotWritten j) := by
  have hlegal := not_illegalReq_of_op_three hop hrsv hn
  have hknown : ¬ UnknownReq r := by simp [UnknownReq, hw]
  rw [step_issue]
  exact State.issueRequest_fault_iff.mpr ⟨hlegal, hknown, hop, j, hj, hnone, hfirst, rfl⟩

set_option maxRecDepth 20000 in
/-- The frame of R75's worked example. -/
theorem setSensorAltitude_frame : be16Split 0x2427#16 ++ [0x03E8#16].flatMap wordGroup =
    [0x24#8, 0x27#8, 0x03#8, 0xE8#8, 0xD4#8] := by
  decide

/-- Settles O12: by the order of the errors (R116), and then by what the arguments hold. -/
theorem encArgsRequest : Obligations.EncArgsRequest := by
  refine ⟨fun s r hop => ⟨fun h => ?_, fun hrsv hn => ⟨fun hw => ?_, fun hw => ⟨fun args => ?_, fun j => ?_⟩⟩⟩,
    fun s hcap harg => ?_⟩
  · exact answers_illegalOperation (by unfold IllegalReq; omega)
  · exact answers_unknownCommand (not_illegalReq_of_op_three hop hrsv hn) ⟨.inr hop, hw⟩
  · exact answers_encArgs hop hrsv hn hw
  · exact step_issue_argNotWritten hop hrsv hn hw
  · refine setSensorAltitude_frame ▸ answers_encArgs (r := 0x31002427#32) rfl rfl hcap (by decide) rfl ?_
    intro j hj
    obtain rfl : j = 0 := Nat.lt_one_iff.mp hj
    exact harg

/-- The legal encodings of DEC_FRAME (R76). -/
theorem not_illegalReq_of_op_four {p : Params} (hop : opOf r = 4) (hrsv : rsvOf r = 0) (hw : wOf r = 0x0000#16)
    (hn : nOf r ≤ p.maxRespWords) : ¬ IllegalReq p r := by
  simp [IllegalReq, hop, hrsv, hw, hn]

/-- R76 as a request for a frame that decodes. -/
theorem answers_decFrame {ws : List Word} (hop : opOf r = 4) (hrsv : rsvOf r = 0) (hw : wOf r = 0x0000#16)
    (hn : nOf r ≤ s.params.maxRespWords) (hlen : s.inLen = 3 * nOf r)
    (hdecode : decodeFrame s.inBuf (nOf r) = some ws) : s.Answers r (.ok [] ws) := by
  have hm := not_malformed_of_not_illegalReq (not_illegalReq_of_op_four hop hrsv hw hn)
  refine State.answers_of_reference ((reference_decFrame hm hop).trans ?_)
  simp [decFrameResult, Nat.not_lt.mpr hn, hlen, hdecode]

set_option maxRecDepth 20000 in
/-- The frame of R76's worked example. -/
theorem decodeFrame_workedExample :
    decodeFrame [0x12#8, 0x34#8, 0x37#8, 0x56#8, 0x78#8, 0x7D#8, 0x9A#8, 0xBC#8, 0xE0#8] 3 =
      some [0x1234#16, 0x5678#16, 0x9ABC#16] := by
  decide

/-- Settles O13: by the order of the errors (R116), and then by what the frame's groups hold. -/
theorem decFrameRequest : Obligations.DecFrameRequest := by
  refine ⟨fun s r hop => ⟨fun h => ?_, fun hrsv hw hn => ?_⟩, fun s hlen => ?_, fun s hcap hlen hbuf => ?_⟩
  · refine answers_illegalOperation ?_
    rcases h with h | h | h
    · exact .inr (.inl h)
    · exact .inr (.inr (.inr (.inr (.inr ⟨hop, h⟩))))
    · exact .inr (.inr (.inr (.inr (.inl ⟨hop, h⟩))))
  · have hlegal := not_illegalReq_of_op_four hop hrsv hw hn
    refine ⟨answers_frameLengthError hlegal hop, fun hlen => ⟨fun i hi hgroup => ?_, fun ws hws hgroups => ?_⟩⟩
    · exact answers_checksumMismatch hlegal hop hlen (decodeFrame_eq_none hi hgroup)
    · exact answers_decFrame hop hrsv hw hn hlen (decodeFrame_eq_some hws hgroups)
  · exact answers_decFrame (r := 0x40000000#32) rfl rfl rfl (Nat.zero_le _) hlen rfl
  · exact answers_decFrame (r := 0x43000000#32) rfl rfl rfl hcap hlen (hbuf ▸ decodeFrame_workedExample)

end Sys2Proof.Machine
end

section
/-! Proofs, family 41_word_codec: the round trip from words to a frame and back (R77). -/

namespace Sys2Proof.Machine

/-- Every group of concatenated word groups is accepted with its word, whatever stands after them. A byte set past the
end changes nothing, so this is `groupAt_wordGroups_set` there. -/
theorem groupAt_wordGroups {ws : List Word} {j : Nat} (hj : j < ws.length) (tail : List Byte) :
    groupAt (ws.flatMap wordGroup ++ tail) j = some ws[j] := by
  have hgroup := groupAt_wordGroups_set hj (3 * ws.length) 0x00#8 tail
  rw [List.set_eq_of_length_le (by rw [wordGroups_length]; omega),
    List.set_eq_of_length_le (by simp [wordGroup, be16Split]; omega)] at hgroup
  exact hgroup.trans (checkGroup_wordGroup _)

/-- R77 for N words: DEC_FRAME leaves them in WORDS. -/
theorem execDecFrame_wordGroups {s : State} {n : BitVec 4} {ws : List Word} {tail : List Byte}
    (hws : ws.length = n.toNat) (hn : n.toNat ≤ s.params.maxRespWords)
    (hbuf : s.inBuf = ws.flatMap wordGroup ++ tail) (hlen : s.inLen = 3 * n.toNat) :
    ∃ u : State, execDecFrame n s = .next u ∧ u.status = 0x0#4 ∧ u.wcount = n.toNat ∧
      ∀ (i : Nat) (h : i < ws.length), u.wordAt i = ws[i] := by
  obtain ⟨c, hc⟩ := execDecFrame_spec n s hn hlen
  have hdecode : decodeFrame s.inBuf n.toNat = some ws :=
    decodeFrame_eq_some hws fun i hi => hbuf ▸ groupAt_wordGroups hi tail
  rw [hdecode] at hc
  refine ⟨_, hc, rfl, hws, fun i hi => ?_⟩
  exact (fillTo_getD (hws ▸ hn) i).trans (List.getD_eq_getElem _ _ hi)

/-- ENC_WORD leaves the word's group on the bus (R38, R74). -/
theorem execEncWord_busBytes (w : Word) (s : State) :
    ∃ t : State, execEncWord w s = .next t ∧ t.busBytes = wordGroup w ∧ t.params = s.params := by
  refine ⟨_, execEncWord_eq w s, ?_, rfl⟩
  have hfits : (wordGroup w).length ≤ s.params.outCap := Params.three_le_outCap s.params
  simp only [State.busBytes, State.writeResult_ok_out, State.writeResult_ok_outLen, fillTo_of_le hfits,
    List.take_left]

/-- Settles O29: the bytes that ENC_WORD leaves are the word groups of one word. -/
theorem wordGroupsDecodeToTheirWords : Obligations.WordGroupsDecodeToTheirWords := by
  refine ⟨fun s w tail hcap => ?_, fun s n ws tail => execDecFrame_wordGroups⟩
  obtain ⟨t, ht, hbus, hparams⟩ := execEncWord_busBytes w s
  obtain ⟨u, hu, hstatus, hcount, hwords⟩ := execDecFrame_wordGroups (n := 0x1#4) (ws := [w]) (tail := tail)
    (s := { t with inBuf := t.busBytes ++ tail, inLen := 3 }) rfl (hparams ▸ hcap) (by simp [hbus]) rfl
  exact ⟨t, u, ht, hbus, hu, hstatus, hcount, hwords 0 Nat.zero_lt_one⟩

end Sys2Proof.Machine
end

section
/-! Proofs, family 42_command_set: the rows of the command table (R81 to R103). Only the table itself differs from row
to row, so a row is proved once, for any command. -/

namespace Sys2Proof.Machine

/-- R50, R73 for a command's own instruction: its wire bytes fit OUT, and no other register is written. -/
theorem sendsBytes_instr (c : Command) : SendsBytes c.instr (hiByte c.code) (loByte c.code) := by
  intro s
  have hfits : (be16Split c.code).length ≤ s.params.outCap := (Nat.le_succ 2).trans (Params.three_le_outCap s.params)
  rw [exec_instr, State.sendCommand, State.writeResult_ok_eq hfits (Nat.zero_le _)]
  rfl

theorem decodeReq_commandReq_code (c : Command) : decodeReq (commandReq c.code) = .ok c.instr :=
  (decodeReq_commandReq c.code).trans (congrArg _ (bareCommand_code c))

/-- R82 to R103 as requests: the REQ of a command is its instruction, which answers with the code's two bytes. -/
theorem answers_commandReq (c : Command) (s : State) :
    s.Answers (commandReq c.code) (.ok (be16Split c.code) []) := by
  intro rest
  exact ⟨s.crc, (step_issue_of_decode (decodeReq_commandReq_code c) s rest).trans (exec_instr c _)⟩

/-- A command's row of R81 follows from its wire bytes. -/
theorem commandRow_of_code {c : Command} {hi lo : Byte} (hcode : c.code = hi ++ lo) :
    CommandRow c c.instr (commandReq c.code) hi lo c.attributes := by
  have hjoin : c.code = be16Join hi lo := hcode.trans (be16Join_eq_append hi lo).symm
  obtain rfl : hiByte c.code = hi := hjoin ▸ hiByte_be16Join hi lo
  obtain rfl : loByte c.code = lo := hjoin ▸ loByte_be16Join _ lo
  exact ⟨rfl, hcode, encode_instr c, decodeReq_commandReq_code c, rfl, sendsBytes_instr c, answers_commandReq c⟩

/-- Settles O14: each row is `commandRow_of_code`, and the table's values are computed. -/
theorem commandTableRows : Obligations.CommandTableRows := by
  unfold Obligations.CommandTableRows
  iterate 21 refine ⟨commandRow_of_code rfl, ?_⟩
  exact commandRow_of_code rfl

end Sys2Proof.Machine
end

section
/-! Proofs, family 43_response_fields: what each response function computes, which words it reads when its response is
there, and that a decoded frame reaches the host unchanged (R105 to R109). -/

namespace Sys2Proof.Machine

/-- R105's mask keeps the bits up to bit 10. -/
theorem getLsbD_and_dataReadyMask (w : Word) (i : Nat) :
    (w &&& 0x07FF#16).getLsbD i = (w.getLsbD i && decide (i ≤ 10)) := by
  have hmask : (0x07FF : Nat).testBit i = decide (i < 11) := Nat.testBit_two_pow_sub_one 11 i
  rw [BitVec.getLsbD_and, BitVec.getLsbD_ofNat, hmask]
  by_cases hi : i ≤ 10
  · simp [hi, show i < 16 by omega, show i < 11 by omega]
  · simp [hi, show ¬ i < 11 by omega]

theorem dataReady_iff_masked {w : Word} : dataReady w = true ↔ (w &&& 0x07FF#16) ≠ 0x0000#16 := bne_iff_ne

theorem dataReady_iff_bit {w : Word} : dataReady w = true ↔ ∃ i, i ≤ 10 ∧ w.getLsbD i = true := by
  have hzero : (w &&& 0x07FF#16) = 0x0000#16 ↔ ∀ i, i ≤ 10 → w.getLsbD i = false := by
    constructor
    · intro h i hi
      simpa [h, hi] using (getLsbD_and_dataReadyMask w i).symm
    · intro h
      refine BitVec.eq_of_getLsbD_eq fun i _ => ?_
      rw [getLsbD_and_dataReadyMask, BitVec.getLsbD_zero]
      by_cases hi : i ≤ 10 <;> simp [hi, h]
  simp [dataReady_iff_masked, hzero]

/-- R105: bits 15 to 11 are ignored. -/
theorem dataReady_congr {w v : Word} (h : ∀ i, i ≤ 10 → v.getLsbD i = w.getLsbD i) : dataReady v = dataReady w := by
  rw [Bool.eq_iff_iff, dataReady_iff_bit, dataReady_iff_bit]
  exact exists_congr fun i => and_congr_right fun hi => by rw [h i hi]

/-- R106 and conflict C2: the first response byte is the word's quotient by 256. -/
theorem selfTestFailed_iff {w : Word} : selfTestFailed w = true ↔ 256 ≤ w.toNat := by
  have hbyte : (hiByte w).toNat = w.toNat / 256 := by
    rw [hiByte_eq_ofNat, BitVec.toNat_ofNat]
    omega
  rw [selfTestFailed, bne_iff_ne, Ne, BitVec.toNat_eq, hbyte, BitVec.toNat_zero]
  omega

/-- A word keeps all its bits at its place in the serial number. -/
theorem setWidth_shiftLeft_toNat (w : Word) {k : Nat} (hk : k ≤ 32) :
    (w.setWidth 48 <<< k).toNat = w.toNat <<< k := by
  have hfits : w.toNat * 2 ^ k < 2 ^ 48 :=
    calc w.toNat * 2 ^ k < 2 ^ 16 * 2 ^ k := Nat.mul_lt_mul_of_pos_right w.isLt (Nat.two_pow_pos k)
      _ = 2 ^ (16 + k) := (Nat.pow_add 2 16 k).symm
      _ ≤ 2 ^ 48 := Nat.pow_le_pow_right Nat.two_pos (by omega)
  rw [BitVec.toNat_shiftLeft, BitVec.toNat_setWidth_of_le (by decide), Nat.shiftLeft_eq, Nat.mod_eq_of_lt hfits]

/-- R107: each word fits below the place of the one before it, so joining them by OR is adding them. -/
theorem serial_toNat (w1 w2 w3 : Word) :
    (serial w1 w2 w3).toNat = w1.toNat * 2 ^ 32 + w2.toNat * 2 ^ 16 + w3.toNat := by
  have hlow : w2.toNat <<< 16 ||| w3.toNat = w2.toNat * 2 ^ 16 + w3.toNat := by
    rw [← Nat.shiftLeft_add_eq_or_of_lt w3.isLt, Nat.shiftLeft_eq]
  have hlt : w2.toNat * 2 ^ 16 + w3.toNat < 2 ^ 32 := by omega
  rw [serial, BitVec.toNat_or, BitVec.toNat_or, setWidth_shiftLeft_toNat _ le_rfl,
    setWidth_shiftLeft_toNat _ (by decide), BitVec.toNat_setWidth_of_le (by decide), Nat.or_assoc, hlow,
    ← Nat.shiftLeft_add_eq_or_of_lt hlt, Nat.shiftLeft_eq, Nat.add_assoc]

section
variable {s : State} (hstatus : s.status = 0x0#4)
include hstatus

theorem State.interpret_dataReady (hcount : s.wcount = 1) :
    s.interpret .dataReady = .ok (.flag (dataReady (s.wordAt 0))) := if_pos ⟨hstatus, hcount⟩

theorem State.interpret_selfTest (hcount : s.wcount = 1) :
    s.interpret .selfTest = .ok (.flag (selfTestFailed (s.wordAt 0))) := if_pos ⟨hstatus, hcount⟩

theorem State.interpret_serialNumber (hcount : s.wcount = 3) :
    s.interpret .serialNumber = .ok (.serial (serial (s.wordAt 0) (s.wordAt 1) (s.wordAt 2))) :=
  if_pos ⟨hstatus, hcount⟩

/-- R108: CO2 is the raw first word. -/
theorem State.interpret_measurement (hcount : s.wcount = 3) :
    s.interpret .measurement = .ok (.measurement (s.wordAt 0) (s.wordAt 1) (s.wordAt 2)) :=
  if_pos ⟨hstatus, hcount⟩

end

/-- R109: a response of another length is none for this function. -/
theorem State.interpret_of_wcount_ne {s : State} {f : ResponseField} (h : s.wcount ≠ f.wordCount) :
    s.interpret f = .error .responseNotAvailable :=
  State.interpret_of_not_available fun ⟨_, hcount⟩ => h hcount

/-- R109: after an error status no response function has a meaning. -/
theorem State.interpret_raise (s : State) (f : ResponseField) {c : StatusCode} (hc : c ≠ .ok) :
    (s.raise c).interpret f = .error .responseNotAvailable :=
  State.interpret_of_not_available fun ⟨hstatus, _⟩ => hc (StatusCode.code_inj.mp hstatus)

/-- Settles O40: ready is a statement about the bits that the mask keeps. -/
theorem dataReadyIsTheLowElevenBits : Obligations.DataReadyIsTheLowElevenBits :=
  ⟨fun _ => dataReady_iff_bit, fun _ => dataReady_iff_masked, fun _ _ => dataReady_congr,
    rfl, rfl, rfl, rfl, rfl, rfl, fun _ => State.interpret_dataReady⟩

/-- Settles O41: the high byte is zero below 256, and only there. -/
theorem selfTestTestsTheFirstByte : Obligations.SelfTestTestsTheFirstByte :=
  ⟨fun _ => selfTestFailed_iff, rfl, rfl, rfl, fun _ => State.interpret_selfTest,
    fun _ => State.interpret_of_not_available (g := .selfTest)⟩

/-- Settles O42: the words side by side, as a number. -/
theorem serialNumberIsThreeWords : Obligations.SerialNumberIsThreeWords :=
  ⟨serial_toNat, rfl, rfl, rfl, fun _ => State.interpret_serialNumber⟩

/-- R77, R107, R108: a frame of three good groups, as the host reads it. -/
theorem interpret_of_threeGroups {s : State} {a b c : Word} {tail : List Byte} (hcap : 3 ≤ s.params.maxRespWords)
    (hbuf : s.inBuf = [a, b, c].flatMap wordGroup ++ tail) (hlen : s.inLen = 9) :
    ∃ u : State, execDecFrame 0x3#4 s = .next u ∧
      u.interpret .measurement = .ok (.measurement a b c) ∧
      u.interpret .serialNumber = .ok (.serial (serial a b c)) ∧
      u.interpret .dataReady = .error .responseNotAvailable := by
  obtain ⟨u, hu, hstatus, hcount, hwords⟩ := execDecFrame_wordGroups (n := 0x3#4) rfl hcap hbuf hlen
  have ha : u.wordAt 0 = a := hwords 0 (by simp)
  have hb : u.wordAt 1 = b := hwords 1 (by simp)
  have hc : u.wordAt 2 = c := hwords 2 (by simp)
  refine ⟨u, hu, ?_, ?_, State.interpret_of_wcount_ne (hcount ▸ by decide)⟩
  · rw [State.interpret_measurement hstatus hcount, ha, hb, hc]
  · rw [State.interpret_serialNumber hstatus hcount, ha, hb, hc]

/-- R77, R105, R106: a frame of one good group, as the host reads it. -/
theorem interpret_of_oneGroup {s : State} {a : Word} {tail : List Byte} (hcap : 1 ≤ s.params.maxRespWords)
    (hbuf : s.inBuf = wordGroup a ++ tail) (hlen : s.inLen = 3) :
    ∃ u : State, execDecFrame 0x1#4 s = .next u ∧
      u.interpret .dataReady = .ok (.flag (dataReady a)) ∧
      u.interpret .selfTest = .ok (.flag (selfTestFailed a)) ∧
      u.interpret .serialNumber = .error .responseNotAvailable := by
  obtain ⟨u, hu, hstatus, hcount, hwords⟩ :=
    execDecFrame_wordGroups (n := 0x1#4) (ws := [a]) (tail := tail) rfl hcap (by simp [hbuf]) hlen
  have ha : u.wordAt 0 = a := hwords 0 Nat.zero_lt_one
  refine ⟨u, hu, ?_, ?_, State.interpret_of_wcount_ne (hcount ▸ by decide)⟩
  · rw [State.interpret_dataReady hstatus hcount, ha]
  · rw [State.interpret_selfTest hstatus hcount, ha]

/-- Settles O43: the words that DEC_FRAME leaves are the ones each response function reads. -/
theorem responsesReachTheHostUnchanged : Obligations.ResponsesReachTheHostUnchanged :=
  ⟨fun _ _ _ _ _ => interpret_of_threeGroups, fun _ _ _ => interpret_of_oneGroup,
    fun _ _ => State.interpret_of_not_available, fun s f _ => State.interpret_raise s f, fun _ => rfl⟩

end Sys2Proof.Machine
end

section
/-! Proofs, family 60_exceptions: no error is fatal to the block, and the model gives every instruction a meaning
(R119, R137). -/

namespace Sys2Proof.Machine

theorem exec_ne_refused (i : Instr) (s : State) (e : Refusal) : exec i s ≠ .refused e := by
  rcases exec_cases i s with ⟨j, hfault⟩ | ⟨c, res, hnext⟩
  · rw [hfault]; nofun
  · rw [hnext]; nofun

/-- Only ENC_CMD_ARGS reads ARG, so only it can meet an element that the host never wrote (R15). -/
theorem exec_next_of_ne_encArgs {i : Instr} (hi : ∀ n w, i ≠ .encArgs n w) (s : State) :
    ∃ t, exec i s = .next t := by
  cases i
  case encArgs n w => exact absurd rfl (hi n w)
  case encCmd w =>
    cases hw : isCommandCode w with
    | false => exact ⟨_, execEncCmd_unlisted hw s⟩
    | true => exact ⟨_, execEncCmd_listed hw s⟩
  case decFrame n =>
    obtain ⟨c, hnext⟩ := execDecFrame_computes n s
    exact ⟨_, hnext⟩
  all_goals exact ⟨_, rfl⟩

section
variable {s : State} {e : Refusal}

/-- A host write either takes place or faults (R15, R16). -/
theorem guardedWrite_ne_refused {c : Prop} [Decidable c] {t : State} {f : Fault} :
    (if c then .next t else .fault f : Host.Outcome State Fault Refusal) ≠ .refused e := by
  split_ifs
  · nofun
  · nofun

theorem State.issueRequest_ne_refused (r : Req) : s.issueRequest r ≠ .refused e := by
  unfold State.issueRequest
  cases decodeReq r with
  | ok i => exact exec_ne_refused i _ e
  | error _ => nofun

theorem State.useResponse_ne_refused (f : ResponseField) : s.useResponse f ≠ .refused e := by
  unfold State.useResponse
  cases s.interpret f with
  | ok _ => nofun
  | error _ => nofun

theorem State.hostAct_ne_refused (a : HostAction) : s.hostAct a ≠ .refused e := by
  cases a with
  | writeArg j a => exact guardedWrite_ne_refused
  | writeIn i b => exact guardedWrite_ne_refused
  | writeInLen n => exact guardedWrite_ne_refused
  | loadFrame bytes => exact guardedWrite_ne_refused
  | recv bytes => exact guardedWrite_ne_refused
  | issue r => exact State.issueRequest_ne_refused r
  | send => nofun
  | wait ms => nofun
  | interpret f => exact State.useResponse_ne_refused f
  | reset => nofun

end

theorem step_ne_refused (s : State) (e : Refusal) : step s ≠ .refused e := by
  unfold step
  split
  · nofun
  · exact State.hostAct_ne_refused _

/-- Settles O28: by what an instruction can do, and by the host action that the step performs. -/
theorem nothingIsRefused : Obligations.NothingIsRefused :=
  ⟨exec_ne_refused, step_ne_refused, fun _ s hi => exec_next_of_ne_encArgs hi s⟩

end Sys2Proof.Machine
end

section
/-! Proofs, family 70_reset_and_hazards: right after reset, and the sensor's lifecycle (R127, R128, R134). -/

namespace Sys2Proof.Machine

/-- DEC_FRAME of no word groups, with IN_LEN zero, leaves empty results and does not touch the CRC register (R76). -/
theorem execDecFrame_zero {s : State} (h : s.inLen = 0) : execDecFrame 0x0#4 s = .next (s.writeResult (.ok [] [])) := by
  simp [execDecFrame, h, State.frameWords]

/-- Settles O45: reset leaves IN_LEN at zero, and empty results are the reset values of the result registers. -/
theorem emptyFrameDecodesRightAfterReset : Obligations.EmptyFrameDecodesRightAfterReset := by
  intro p rest
  have hdecode : decodeReq 0x40000000#32 = .ok (.decFrame 0x0#4) := by decide
  rw [step_issue_of_decode hdecode]
  refine (execDecFrame_zero rfl).trans ?_
  simp [State.writeResult, State.resetWith, fillTo_nil, StatusCode.code]

/-- Settles O47: by the state the sensor is in; what the block answers to a command does not depend on its state. -/
theorem lifecycleOrder : Obligations.LifecycleOrder := by
  refine ⟨fun _ => rfl, fun st u => ?_, answers_commandReq⟩
  cases st with
  | uninitialized => simp [Command.after]
  | asleep => simp [Command.after, eq_comm]
  | idle => simp [Command.after, eq_comm]
  | periodicMeasuring => simp [Command.after, eq_comm]
  | singleShotPending => simp [Command.after, eq_comm]

end Sys2Proof.Machine
end

section
/-! Proofs, family 70_reset_and_hazards: what one host action needs to keep the host's obligations (R128 to R135), and
what the host knows after it. -/

namespace Sys2Proof.Machine

/-- An `enc.args` request asks for its N arguments (R75). -/
theorem argsAsked_of_op_three {r : Req} (hop : opOf r = 3) (hrsv : rsvOf r = 0) : argsAsked r = nOf r := by
  have hop' : reqOp r = 0x3#4 := (reqOp_eq_iff r _).mpr hop
  rw [argsAsked, if_pos ⟨hop', (reqRsv_eq_zero_iff r).mpr hrsv⟩, reqN_toNat]

/-- A `dec.frame` request asks for its N word groups (R76). -/
theorem groupsAsked_of_op_four {r : Req} (hop : opOf r = 4) (hrsv : rsvOf r = 0) (hw : wOf r = 0x0000#16) :
    groupsAsked r = nOf r := by
  have hop' : reqOp r = 0x4#4 := (reqOp_eq_iff r _).mpr hop
  rw [groupsAsked, if_pos ⟨hop', (reqRsv_eq_zero_iff r).mpr hrsv, (reqW_eq_wOf r).trans hw⟩, reqN_toNat]

@[simp] theorem argsAsked_decFrame (n : BitVec 4) : argsAsked (packReq 0x4#4 n 0x0000#16) = 0 := by
  simp [argsAsked]

@[simp] theorem groupsAsked_decFrame (n : BitVec 4) : groupsAsked (packReq 0x4#4 n 0x0000#16) = n.toNat := by
  simp [groupsAsked]

/-- Only ENC_CMD and ENC_CMD_ARGS leave a command frame in OUT (R17, R131). -/
theorem encodedBy_eq_none {p : Params} {r : Req} (h1 : opOf r ≠ 1) (h3 : opOf r ≠ 3) : encodedBy p r = none := by
  refine if_neg ?_
  rintro ⟨-, ⟨hop, -⟩ | ⟨hop, -⟩⟩
  · exact h1 ((reqOp_eq_iff r _).mp hop)
  · exact h3 ((reqOp_eq_iff r _).mp hop)

/-- The bare frame of a command is the command's, when the command takes no argument (log entry 23). -/
theorem encodedBy_commandReq (p : Params) (c : Command) :
    encodedBy p (commandReq c.code) = if c.argWords = 0 then some c else none := by
  simp [encodedBy, commandReq, Command.ofCode?_code]

variable {p : Params} {t u : HostTrack}

/-- A bare command reads neither ARG nor IN, so it may always be issued. -/
theorem HostTrack.mayIssue_commandReq (t : HostTrack) (w : Word) : t.MayIssue (commandReq w) := by
  simp [HostTrack.MayIssue, commandReq, argsAsked, groupsAsked]

theorem HostTrack.act_issue_eq_some_iff {r : Req} :
    t.act p (.issue r) = some u ↔ t.MayIssue r ∧ { t with encoded := encodedBy p r } = u := by
  rw [HostTrack.act, Option.ite_none_right_eq_some, Option.some_inj]

theorem HostTrack.act_send_eq_some_iff : t.act p .send = some u ↔
    ∃ c st, t.encoded = some c ∧ t.MaySend ∧ c.after t.sensor = some st ∧ t.afterSend c st = u := by
  simp only [HostTrack.act]
  cases hc : t.encoded with
  | none => simp
  | some c =>
    by_cases hmay : t.MaySend
    · cases hst : c.after t.sensor with
      | none => simp [hst]
      | some st => simp [hst]
    · simp [hmay]

theorem HostTrack.act_recv_eq_some_iff {bytes : List Byte} : t.act p (.recv bytes) = some u ↔
    ∃ c, t.pending = some c ∧ t.waitMs = 0 ∧ t.gapMs = 0 ∧ bytes.length ≤ 3 * c.respWords ∧
      bytes.length ≤ p.inCap ∧ t.afterRecv c bytes.length = u := by
  simp only [HostTrack.act]
  cases hc : t.pending with
  | none => simp
  | some c => simp [and_assoc]

theorem HostTrack.run_cons (a : HostAction) (rest : List HostAction) :
    t.run p (a :: rest) = (t.act p a).bind (·.run p rest) := by
  rw [HostTrack.run]
  cases t.act p a <;> rfl

theorem HostTrack.run_append (as bs : List HostAction) :
    t.run p (as ++ bs) = (t.run p as).bind (·.run p bs) := by
  induction as generalizing t with
  | nil => rfl
  | cons a as ih =>
    rw [List.cons_append, HostTrack.run_cons, HostTrack.run_cons, Option.bind_assoc]
    exact congrArg _ (funext fun _ => ih)

/-- A program keeps no obligations when its first action breaks one. -/
theorem HostTrack.run_cons_eq_none {a : HostAction} (h : ∀ u, t.act p a ≠ some u) (rest : List HostAction) :
    t.run p (a :: rest) = none := by
  rw [HostTrack.run_cons, Option.eq_none_iff_forall_ne_some.mpr h]
  rfl

/-- A program keeps no obligations when its second action breaks one. -/
theorem HostTrack.run_cons_cons_eq_none {a b : HostAction} (h : ∀ v, t.act p a = some v → ∀ u, v.act p b ≠ some u)
    (rest : List HostAction) : t.run p (a :: b :: rest) = none := by
  rw [HostTrack.run_cons, Option.bind_eq_none_iff]
  exact fun v hv => HostTrack.run_cons_eq_none (h v hv) rest

theorem HostTrack.run_decFrame_eq_none {r : Req} (hop : opOf r = 4) (hrsv : rsvOf r = 0) (hw : wOf r = 0x0000#16)
    (hn : nOf r ≠ 0) (h : t.inLen ≠ 3 * nOf r ∨ t.pending ≠ none ∨ ∃ i, i < 3 * nOf r ∧ i ∉ t.inReady)
    (rest : List HostAction) : t.run p (.issue r :: rest) = none := by
  refine HostTrack.run_cons_eq_none (fun u hact => ?_) rest
  obtain ⟨⟨-, hgroups⟩, -⟩ := HostTrack.act_issue_eq_some_iff.mp hact
  rw [groupsAsked_of_op_four hop hrsv hw] at hgroups
  obtain ⟨hpending, hlen, hready⟩ := hgroups.resolve_left hn
  rcases h with h | h | ⟨i, hi, h⟩
  · exact h hlen
  · exact h hpending
  · exact h (hready i hi)

theorem HostTrack.run_encArgs_eq_none {r : Req} (hop : opOf r = 3) (hrsv : rsvOf r = 0)
    (h : ∃ j, j < nOf r ∧ j ∉ t.argReady) (rest : List HostAction) : t.run p (.issue r :: rest) = none := by
  refine HostTrack.run_cons_eq_none (fun u hact => ?_) rest
  obtain ⟨⟨hargs, -⟩, -⟩ := HostTrack.act_issue_eq_some_iff.mp hact
  rw [argsAsked_of_op_three hop hrsv] at hargs
  obtain ⟨j, hj, hunwritten⟩ := h
  exact hunwritten (hargs j hj)

theorem HostTrack.act_send_ne_some (h : t.encoded = none ∨ t.waitMs ≠ 0 ∨
    (∃ c, t.pending = some c ∧ c.delayMs = 0) ∨ ∃ c, t.encoded = some c ∧ c.after t.sensor = none) (u : HostTrack) :
    t.act p .send ≠ some u := by
  intro hact
  obtain ⟨c, st, hc, ⟨hwait, hpending⟩, hst, -⟩ := HostTrack.act_send_eq_some_iff.mp hact
  rcases h with h | h | ⟨d, hd, h⟩ | ⟨d, hd, h⟩
  · rw [h] at hc; cases hc
  · exact h hwait
  · exact hpending d hd h
  · rw [hc] at hd; cases hd; rw [h] at hst; cases hst

theorem HostTrack.act_recv_ne_some {bytes : List Byte} (h : t.pending = none ∨ t.waitMs ≠ 0 ∨ t.gapMs ≠ 0 ∨
    ∃ c, t.pending = some c ∧ 3 * c.respWords < bytes.length) (u : HostTrack) : t.act p (.recv bytes) ≠ some u := by
  intro hact
  obtain ⟨c, hc, hwait, hgap, hlen, -⟩ := HostTrack.act_recv_eq_some_iff.mp hact
  rcases h with h | h | h | ⟨d, hd, h⟩
  · rw [h] at hc; cases hc
  · exact h hwait
  · exact h hgap
  · rw [hc] at hd; cases hd; omega

/-- After a reset of the block the sensor's state is unknown (R129), so a command which that state forbids is not
sent. -/
theorem HostTrack.act_send_after_reset {c : Command} (hc : c.after .uninitialized = none) {v : HostTrack}
    (h : t.afterReset.act p (.issue (commandReq c.code)) = some v) (u : HostTrack) : v.act p .send ≠ some u := by
  obtain ⟨-, rfl⟩ := HostTrack.act_issue_eq_some_iff.mp h
  rw [encodedBy_commandReq]
  by_cases hargs : c.argWords = 0
  · exact HostTrack.act_send_ne_some (.inr (.inr (.inr ⟨c, if_pos hargs, hc⟩))) u
  · exact HostTrack.act_send_ne_some (.inl (if_neg hargs)) u

/-- Settles O51: each clause is what `HostTrack.act` needs of its action, negated. -/
theorem brokenObligationsAreRefused : Obligations.BrokenObligationsAreRefused := by
  intro p t rest
  refine ⟨fun r hop hrsv h => HostTrack.run_encArgs_eq_none hop hrsv h rest,
    fun r hop hrsv hw hn h => HostTrack.run_decFrame_eq_none hop hrsv hw hn h rest,
    fun h => HostTrack.run_cons_eq_none (HostTrack.act_send_ne_some h) rest,
    fun bytes h => HostTrack.run_cons_eq_none (HostTrack.act_recv_ne_some h) rest,
    fun r h1 h3 => ?_, fun c hc => ?_, fun bytes => ?_⟩
  · refine HostTrack.run_cons_cons_eq_none (fun v hv => ?_) rest
    obtain ⟨-, rfl⟩ := HostTrack.act_issue_eq_some_iff.mp hv
    exact HostTrack.act_send_ne_some (.inl (encodedBy_eq_none h1 h3))
  · exact HostTrack.run_cons_cons_eq_none (t := t.afterReset) (fun _ => HostTrack.act_send_after_reset hc) rest
  · have hrecv : ∀ u, t.afterReset.act p (.recv bytes) ≠ some u := HostTrack.act_recv_ne_some (.inl rfl)
    exact HostTrack.run_cons_eq_none hrecv rest

end Sys2Proof.Machine
end

section
/-! Proofs, family 70_reset_and_hazards: a host that keeps its obligations never makes the machine fault (R15, R16,
R119, R128). What the host knows is a simulation of the block: each kept action is a step, and keeps
`HostTrack.Describes`. -/

namespace Sys2Proof.Machine

variable {s : State} {t u : HostTrack}

/-- An element of ARG that the host writes holds a value from then on, and so does every one that held one before. -/
theorem State.argWord_set_ne_none {i j : Nat} (a : Word) (hj : j < s.arg.length) (h : i = j ∨ s.argWord i ≠ none) :
    State.argWord { s with arg := s.arg.set j (some a) } i ≠ none := by
  unfold State.argWord at *
  by_cases hij : i = j
  · rw [hij, getD_set hj, if_pos rfl]
    nofun
  · rw [List.getD_eq_getElem?_getD, List.getElem?_set_ne (Ne.symm hij), ← List.getD_eq_getElem?_getD]
    exact h.resolve_left hij

/-- A request whose arguments the host has written, as it knows, does not fault: it writes a result (R15, R20). -/
theorem HostTrack.Describes.issueRequest (hd : t.Describes s) {r : Req} (hmay : t.MayIssue r) :
    ∃ c res, s.issueRequest r = .next (State.writeResult { s with req := r, crc := c } res) := by
  have hc := s.issueRequest_computes r
  cases href : reference s.params s.arg s.inBuf s.inLen r with
  | ok res =>
    rw [href] at hc
    obtain ⟨c, hc⟩ := hc
    exact ⟨c, res, hc⟩
  | error f =>
    obtain ⟨hlegal, -, hop, hread⟩ := reference_error_iff.mp href
    obtain ⟨j, hj, hnone, -⟩ := readArgs_error_iff.mp hread
    have hrsv : rsvOf r = 0 := by unfold IllegalReq at hlegal; omega
    obtain ⟨hready, -⟩ := hmay
    rw [argsAsked_of_op_three hop hrsv] at hready
    exact absurd hnone (hd.args j (hready j hj))

@[simp] theorem HostTrack.afterRecv_inLen (t : HostTrack) (c : Command) (k : Nat) : (t.afterRecv c k).inLen = k := by
  unfold HostTrack.afterRecv
  split_ifs <;> rfl

@[simp] theorem HostTrack.afterRecv_argReady (t : HostTrack) (c : Command) (k : Nat) :
    (t.afterRecv c k).argReady = t.argReady := by
  unfold HostTrack.afterRecv
  split_ifs <;> rfl

/-- A host action that keeps the obligations takes place, and what the host knows after it describes the block. -/
theorem HostTrack.Describes.hostAct (hd : t.Describes s) (hs : s.Wf) {a : HostAction}
    (hact : t.act s.params a = some u) (ha : ∀ f, a ≠ .interpret f) :
    ∃ v, s.hostAct a = .next v ∧ v.host = s.host ∧ v.params = s.params ∧ u.Describes v := by
  cases a with
  | writeArg j a =>
    obtain ⟨hj, ⟨⟩⟩ := Option.ite_none_right_eq_some.mp hact
    refine ⟨_, if_pos hj, rfl, rfl, hd.inLen, fun i hi => ?_⟩
    exact State.argWord_set_ne_none a (hs.argSize ▸ hj) ((List.mem_cons.mp hi).imp_right (hd.args i))
  | writeIn i b =>
    obtain ⟨hi, ⟨⟩⟩ := Option.ite_none_right_eq_some.mp hact
    exact ⟨_, if_pos hi, rfl, rfl, hd.inLen, hd.args⟩
  | writeInLen n =>
    obtain ⟨hn, ⟨⟩⟩ := Option.ite_none_right_eq_some.mp hact
    exact ⟨_, if_pos hn, rfl, rfl, rfl, hd.args⟩
  | loadFrame bytes =>
    obtain ⟨hlen, ⟨⟩⟩ := Option.ite_none_right_eq_some.mp hact
    exact ⟨_, if_pos hlen, rfl, rfl, rfl, hd.args⟩
  | recv bytes =>
    obtain ⟨c, -, -, -, -, hlen, rfl⟩ := HostTrack.act_recv_eq_some_iff.mp hact
    exact ⟨_, if_pos hlen, rfl, rfl, t.afterRecv_inLen c _, t.afterRecv_argReady c _ ▸ hd.args⟩
  | issue r =>
    obtain ⟨hmay, rfl⟩ := HostTrack.act_issue_eq_some_iff.mp hact
    obtain ⟨c, res, hnext⟩ := hd.issueRequest hmay
    exact ⟨_, hnext, by simp, by simp, by simpa using hd.inLen, by simpa [State.argWord] using hd.args⟩
  | send =>
    obtain ⟨c, st, -, -, -, rfl⟩ := HostTrack.act_send_eq_some_iff.mp hact
    exact ⟨s, rfl, rfl, rfl, hd.inLen, hd.args⟩
  | wait ms => cases hact; exact ⟨s, rfl, rfl, rfl, hd.inLen, hd.args⟩
  | interpret f => exact absurd rfl (ha f)
  | reset => cases hact; exact ⟨s.hardReset, rfl, rfl, rfl, rfl, nofun⟩

/-- The actions of a host program that keep the obligations run without a fault, whatever the host does after them. -/
theorem HostTrack.Describes.run {as rest : List HostAction} (hd : t.Describes s) (hs : s.Wf)
    (hhost : s.host = as ++ rest) (hrun : t.run s.params as = some u) (has : ∀ f, .interpret f ∉ as) :
    ∃ v, Sys2Proof.core.run as.length s = .next v ∧ v.host = rest ∧ v.Wf ∧ v.params = s.params ∧ u.Describes v := by
  induction as generalizing s t with
  | nil => cases hrun; exact ⟨s, rfl, hhost, hs, rfl, hd⟩
  | cons a as ih =>
    rw [HostTrack.run_cons, Option.bind_eq_some_iff] at hrun
    obtain ⟨t', hact, hrun⟩ := hrun
    have hd' : t.Describes { s with host := as ++ rest } := ⟨hd.inLen, hd.args⟩
    obtain ⟨s', hnext, hhost', hparams, hd''⟩ :=
      hd'.hostAct (hs.withHost _) hact fun f hf => has f (hf ▸ List.mem_cons_self)
    have hstep : step s = .next s' := by simpa only [step, hhost, List.cons_append] using hnext
    obtain ⟨v, hv, hrest, hwf, hparams', hdesc⟩ := ih hd'' (everyStepKeepsTheInvariant s s' hs hstep) hhost'
      (hparams.symm ▸ hrun) fun f hf => has f (List.mem_cons_of_mem a hf)
    exact ⟨v, (run_succ hstep).trans hv, hrest, hwf, hparams'.trans hparams, hdesc⟩

/-- Settles O50: the whole program keeps the obligations, and nothing is left after it. -/
theorem keptObligationsRunWithoutFault : Obligations.KeptObligationsRunWithoutFault :=
  fun s _ _ hs hd hrun hinterpret => hd.run hs (List.append_nil s.host).symm hrun hinterpret

end Sys2Proof.Machine
end

section
/-! Proofs, family 70_reset_and_hazards: the host's initialisation sequence (R130). It is two commands without a
response and one or two read commands, and after each of these the host owes no delay and awaits no response. -/

namespace Sys2Proof.Machine

/-- The actions that send a bare command, and a wait after it (R131, R133). -/
def sendAndWait (c : Command) (ms : Nat) : List HostAction := [.issue (commandReq c.code), .send, .wait ms]

/-- The actions that take the delivery of a response of `n` words and decode it (R135). -/
def receiveAndDecode (frame : List Byte) (n : BitVec 4) : List HostAction :=
  [.recv frame, .issue (packReq 0x4#4 n 0x0000#16)]

/-- The initialisation sequence up to the delivery of the serial number. -/
def serialNumberRequest : List HostAction :=
  sendAndWait .wakeUp 20 ++ sendAndWait .stopPeriodicMeasurement 500 ++
    sendAndWait .getSerialNumber (Config.readGapMs .getSerialNumber)

/-- The initialisation sequence up to the delivery of the self-test result. -/
def selfTestRequest (serialFrame : List Byte) : List HostAction :=
  initSequence serialFrame none ++ sendAndWait .performSelfTest 10000

theorem initSequence_none (serialFrame : List Byte) :
    initSequence serialFrame none = serialNumberRequest ++ receiveAndDecode serialFrame 0x3#4 := rfl

theorem initSequence_some (serialFrame selfTestFrame : List Byte) : initSequence serialFrame (some selfTestFrame) =
    selfTestRequest serialFrame ++ receiveAndDecode selfTestFrame 0x1#4 := rfl

theorem interpret_notMem_serialNumberRequest (f : ResponseField) : .interpret f ∉ serialNumberRequest := by
  simp [serialNumberRequest, sendAndWait]

theorem interpret_notMem_selfTestRequest (frame : List Byte) (f : ResponseField) :
    .interpret f ∉ selfTestRequest frame := by
  simp [selfTestRequest, initSequence_none, serialNumberRequest, sendAndWait, receiveAndDecode]

/-- The host knows the sensor to be in the state `st`, every delay and gap has passed, and the response to come is the
one to `pending`. -/
structure HostTrack.Waited (t : HostTrack) (st : SensorState) (pending : Option Command) : Prop where
  sensor : t.sensor = st
  waitMs : t.waitMs = 0
  gapMs : t.gapMs = 0
  pending : t.pending = pending

section
variable {p : Params} {t : HostTrack} {st : SensorState}

theorem HostTrack.run_append_of_run {as bs : List HostAction} {u v : HostTrack} (has : t.run p as = some u)
    (hbs : u.run p bs = some v) : t.run p (as ++ bs) = some v := by
  rw [HostTrack.run_append, has, Option.bind_some, hbs]

/-- Sending a command without arguments that the sensor's state allows, and waiting its delay, or the gap of a read
command without delay (R133, R134; log entry 21). -/
theorem HostTrack.run_sendAndWait {c : Command} {ms : Nat} (hwait : t.waitMs = 0) (hpending : t.pending = none)
    (hargs : c.argWords = 0) (hst : c.after t.sensor = some st) (hdelay : c.delayMs ≤ ms)
    (hgap : c.respWords ≠ 0 ∧ c.delayMs = 0 → Config.readGapMs c ≤ ms) :
    ∃ u, t.run p (sendAndWait c ms) = some u ∧ u.Waited st (if c.respWords = 0 then none else some c) := by
  have hissue : t.act p (.issue (commandReq c.code)) = some { t with encoded := some c } :=
    HostTrack.act_issue_eq_some_iff.mpr ⟨t.mayIssue_commandReq _, by rw [encodedBy_commandReq, if_pos hargs]⟩
  have hsend : HostTrack.act p { t with encoded := some c } .send =
      some (HostTrack.afterSend { t with encoded := some c } c st) :=
    HostTrack.act_send_eq_some_iff.mpr ⟨c, st, rfl, ⟨hwait, by simp [hpending]⟩, hst, rfl⟩
  rw [sendAndWait, HostTrack.run_cons, hissue, Option.bind_some, HostTrack.run_cons, hsend, Option.bind_some]
  refine ⟨_, rfl, rfl, Nat.sub_eq_zero_of_le hdelay, Nat.sub_eq_zero_of_le ?_, rfl⟩
  simp only [HostTrack.afterSend]
  split_ifs with h
  · exact hgap h
  · exact Nat.zero_le ms

/-- The whole response is delivered into IN, so the host may decode it (R128, R135). -/
theorem HostTrack.run_receiveAndDecode {c : Command} {frame : List Byte} {n : BitVec 4} (ht : t.Waited st (some c))
    (hresp : c.respWords = n.toNat) (hlen : frame.length = 3 * n.toNat) (hcap : frame.length ≤ p.inCap) :
    ∃ u, t.run p (receiveAndDecode frame n) = some u ∧ u.Waited st none := by
  have hrecv : t.act p (.recv frame) =
      some { t with pending := none, inLen := frame.length, inReady := List.range frame.length } :=
    HostTrack.act_recv_eq_some_iff.mpr
      ⟨c, ht.pending, ht.waitMs, ht.gapMs, by omega, hcap, if_pos (hresp.symm ▸ hlen)⟩
  rw [receiveAndDecode, HostTrack.run_cons, hrecv, Option.bind_some, HostTrack.run_cons,
    HostTrack.act_issue_eq_some_iff.mpr ⟨by simp [HostTrack.MayIssue, hlen], rfl⟩]
  exact ⟨_, rfl, ht.sensor, ht.waitMs, ht.gapMs, rfl⟩

theorem HostTrack.run_serialNumberRequest (hwait : t.waitMs = 0) (hpending : t.pending = none) :
    ∃ u, t.run p serialNumberRequest = some u ∧ u.Waited .idle (some .getSerialNumber) := by
  obtain ⟨u, hwake, hu⟩ := HostTrack.run_sendAndWait (p := p) (c := .wakeUp) (ms := 20)
    hwait hpending rfl rfl le_rfl nofun
  obtain ⟨v, hstop, hv⟩ := HostTrack.run_sendAndWait (p := p) (c := .stopPeriodicMeasurement) (ms := 500)
    hu.waitMs hu.pending rfl (by rw [hu.sensor]; rfl) le_rfl nofun
  obtain ⟨w, hserial, hw⟩ := HostTrack.run_sendAndWait (p := p) (c := .getSerialNumber)
    hv.waitMs hv.pending rfl (by rw [hv.sensor]; rfl) (Nat.zero_le _) fun _ => le_rfl
  exact ⟨w, run_append_of_run (run_append_of_run hwake hstop) hserial, hw⟩

section
variable {frame : List Byte} (hwait : t.waitMs = 0) (hpending : t.pending = none) (hlen : frame.length = 9)
  (hcap : frame.length ≤ p.inCap)
include hwait hpending hlen hcap

theorem HostTrack.run_initSequence_none : ∃ u, t.run p (initSequence frame none) = some u ∧ u.Waited .idle none := by
  obtain ⟨u, hrequest, hu⟩ := HostTrack.run_serialNumberRequest (p := p) hwait hpending
  obtain ⟨v, hdecode, hv⟩ := HostTrack.run_receiveAndDecode (n := 0x3#4) hu rfl hlen hcap
  exact ⟨v, initSequence_none frame ▸ run_append_of_run hrequest hdecode, hv⟩

/-- The self-test is sent from Idle, where the sequence so far has left the sensor (R134). -/
theorem HostTrack.run_selfTestRequest :
    ∃ u, t.run p (selfTestRequest frame) = some u ∧ u.Waited .idle (some .performSelfTest) := by
  obtain ⟨u, hinit, hu⟩ := HostTrack.run_initSequence_none hwait hpending hlen hcap
  obtain ⟨v, hsend, hv⟩ := HostTrack.run_sendAndWait (p := p) (c := .performSelfTest) (ms := 10000)
    hu.waitMs hu.pending rfl (by rw [hu.sensor]; rfl) le_rfl nofun
  exact ⟨v, run_append_of_run hinit hsend, hv⟩

theorem HostTrack.run_initSequence_some {selfTestFrame : List Byte} (hlen' : selfTestFrame.length = 3)
    (hcap' : selfTestFrame.length ≤ p.inCap) :
    ∃ u, t.run p (initSequence frame (some selfTestFrame)) = some u ∧ u.Waited .idle none := by
  obtain ⟨u, hrequest, hu⟩ := HostTrack.run_selfTestRequest hwait hpending hlen hcap
  obtain ⟨v, hdecode, hv⟩ := HostTrack.run_receiveAndDecode (n := 0x1#4) hu rfl hlen' hcap'
  exact ⟨v, initSequence_some frame selfTestFrame ▸ run_append_of_run hrequest hdecode, hv⟩

/-- Decoding before the delivery breaks the obligation of R135. -/
theorem HostTrack.run_undelivered_selfTest : t.run p (initSequence frame none ++
    assemble [.encCmd (.name .performSelfTest), .action .send, .action (.wait 10000), .decWord]) = none := by
  obtain ⟨u, hrequest, hu⟩ := HostTrack.run_selfTestRequest hwait hpending hlen hcap
  have hprogram : initSequence frame none ++
      assemble [.encCmd (.name .performSelfTest), .action .send, .action (.wait 10000), .decWord] =
    selfTestRequest frame ++ [.issue 0x41000000#32] := rfl
  have houtstanding : u.pending ≠ none := by rw [hu.pending]; nofun
  rw [hprogram, HostTrack.run_append, hrequest, Option.bind_some]
  exact HostTrack.run_decFrame_eq_none rfl rfl rfl (by decide) (.inr (.inl houtstanding)) []

end

end

/-- The request `dec.frame n` runs to its end in every state (R76). -/
theorem step_decFrame (n : BitVec 4) (s : State) (rest : List HostAction) :
    ∃ v, step { s with host := .issue (packReq 0x4#4 n 0x0000#16) :: rest } = .next v ∧
      execDecFrame n { s with host := rest, req := packReq 0x4#4 n 0x0000#16 } = .next v := by
  obtain ⟨v, hv⟩ := exec_next_of_ne_encArgs (i := .decFrame n) nofun
    { s with host := rest, req := packReq 0x4#4 n 0x0000#16 }
  have hdecode : decodeReq (packReq 0x4#4 n 0x0000#16) = .ok (.decFrame n) := decodeReq_encode (i := .decFrame n) rfl
  exact ⟨v, (step_issue_of_decode hdecode s rest).trans hv, hv⟩

/-- A kept program, and then a delivery and its DEC_FRAME: the machine runs all of it, and the DEC_FRAME finds the
frame in IN (R38). -/
theorem HostTrack.Describes.run_receiveAndDecode {s : State} {t u : HostTrack} {as : List HostAction}
    {frame : List Byte} (n : BitVec 4) (hd : t.Describes s) (hs : s.Wf) (hrun : t.run s.params as = some u)
    (has : ∀ f, .interpret f ∉ as) (hcap : frame.length ≤ s.params.inCap) :
    ∃ v w tail, Sys2Proof.core.run (as.length + 2) { s with host := as ++ receiveAndDecode frame n } = .next v ∧
      v.host = [] ∧ v.Wf ∧ execDecFrame n w = .next v ∧
      w.params = s.params ∧ w.inBuf = frame ++ tail ∧ w.inLen = frame.length := by
  have hd' : t.Describes { s with host := as ++ receiveAndDecode frame n } := ⟨hd.inLen, hd.args⟩
  obtain ⟨x, hx, hhost, hwf, hparams, -⟩ := hd'.run (hs.withHost _) rfl hrun has
  have hrecv : step x = State.loadFrame { x with host := [.issue (packReq 0x4#4 n 0x0000#16)] } frame := by
    simp only [step, hhost, receiveAndDecode, State.hostAct]
  have hdeliver := hrecv.trans (if_pos (by rw [hparams]; exact hcap))
  obtain ⟨v, hissue, hv⟩ := step_decFrame n
    { x with inBuf := frame ++ x.inBuf.drop frame.length, inLen := frame.length } []
  obtain ⟨-, -, -, -, -, hdone⟩ := inputRegistersAreNeverWritten.2 _ _ _ _ hissue
  have hrun' : Sys2Proof.core.run (as.length + 2) _ = .next v :=
    (run_add _ 2 _ _ hx).trans ((run_succ hdeliver).trans (run_succ hissue))
  have hwf' : v.Wf := everyStepKeepsTheInvariant _ _ (everyStepKeepsTheInvariant _ _ hwf hdeliver) hissue
  exact ⟨v, _, _, hrun', hdone, hwf', hv, hparams, rfl, rfl⟩

/-- Every state is described by what a host knows that counts only on IN_LEN. -/
theorem HostTrack.exists_describes (s : State) : ∃ t : HostTrack, t.Describes s ∧ t.waitMs = 0 ∧ t.pending = none :=
  ⟨{ HostTrack.start .uninitialized with inLen := s.inLen }, ⟨rfl, nofun⟩, rfl, rfl⟩

section
variable {s : State} {frame : List Byte} (hs : s.Wf) (hlen : frame.length = 9) (hcap : frame.length ≤ s.params.inCap)
include hs hlen hcap

theorem run_initSequence_none (hwords : 3 ≤ s.params.maxRespWords) :
    ∃ v, Sys2Proof.core.run 11 { s with host := initSequence frame none } = .next v ∧ v.host = [] ∧ v.Wf ∧
      ∀ a b c : Word, frame = [a, b, c].flatMap wordGroup →
        v.interpret .serialNumber = .ok (.serial (serial a b c)) := by
  obtain ⟨t, hd, hwait, hpending⟩ := HostTrack.exists_describes s
  obtain ⟨u, hrun, -⟩ := HostTrack.run_serialNumberRequest (p := s.params) hwait hpending
  obtain ⟨v, w, tail, hv, hhost, hwf, hdecode, hparams, hbuf, hinLen⟩ :=
    hd.run_receiveAndDecode 0x3#4 hs hrun interpret_notMem_serialNumberRequest hcap
  refine ⟨v, hv, hhost, hwf, fun a b c hframe => ?_⟩
  obtain ⟨x, hx, -, hserial, -⟩ := interpret_of_threeGroups (hparams ▸ hwords) (hframe ▸ hbuf) (hinLen.trans hlen)
  cases hx.symm.trans hdecode
  exact hserial

theorem run_initSequence_some {selfTestFrame : List Byte} (hlen' : selfTestFrame.length = 3)
    (hcap' : selfTestFrame.length ≤ s.params.inCap) :
    ∃ v, Sys2Proof.core.run 16 { s with host := initSequence frame (some selfTestFrame) } = .next v ∧ v.host = [] ∧
      v.Wf ∧ ∀ a : Word, selfTestFrame = wordGroup a → v.interpret .selfTest = .ok (.flag (selfTestFailed a)) := by
  obtain ⟨t, hd, hwait, hpending⟩ := HostTrack.exists_describes s
  obtain ⟨u, hrun, -⟩ := HostTrack.run_selfTestRequest hwait hpending hlen hcap
  obtain ⟨v, w, tail, hv, hhost, hwf, hdecode, hparams, hbuf, hinLen⟩ :=
    hd.run_receiveAndDecode 0x1#4 hs hrun (interpret_notMem_selfTestRequest frame) hcap'
  refine ⟨v, hv, hhost, hwf, fun a hframe => ?_⟩
  obtain ⟨hword, -⟩ := hs.params
  obtain ⟨x, hx, -, hflag, -⟩ := interpret_of_oneGroup (hparams ▸ hword) (hframe ▸ hbuf) (hinLen.trans hlen')
  cases hx.symm.trans hdecode
  exact hflag

end

/-- Settles O48: command by command for the obligations, which then carry the machine to the end of the sequence. -/
theorem initSequenceKeepsTheHostObligations : Obligations.InitSequenceKeepsTheHostObligations := by
  intro s t serialFrame selfTestFrame hs hwords hwait hpending hlen hlen'
  have hcap : serialFrame.length ≤ s.params.inCap := by rw [hlen, Params.inCap]; omega
  have hcap' : selfTestFrame.length ≤ s.params.inCap := by rw [hlen', Params.inCap]; omega
  obtain ⟨u, hrun, ⟨hsensor, hwaited, hgap, hreceived⟩⟩ := HostTrack.run_initSequence_none hwait hpending hlen hcap
  obtain ⟨v, hrun', ⟨hsensor', hwaited', hgap', hreceived'⟩⟩ :=
    HostTrack.run_initSequence_some hwait hpending hlen hcap hlen' hcap'
  exact ⟨⟨⟨u, hrun, hsensor, hwaited, hgap, hreceived⟩, run_initSequence_none hs hlen hcap hwords⟩,
    ⟨⟨v, hrun', hsensor', hwaited', hgap', hreceived'⟩, run_initSequence_some hs hlen hcap hlen' hcap'⟩,
    HostTrack.run_undelivered_selfTest hwait hpending hlen hcap⟩

end Sys2Proof.Machine
end
